-- ==== Sys2Proof/Word.lean ====
section
/-! DEFINITION. The word types of the block: bytes, bus addresses, colour values, and the sparse memories that hold
the address spaces of spec/20_memory.md rule R38. -/

namespace Sys2Proof

/-- A byte, the unit of every access (R9, R45). -/
abbrev Byte := BitVec 8

/-- A bus address as the transaction word carries it, `TW[15:0]` (R53). The PPU bus uses the low 14 bits (R38). -/
abbrev Addr := BitVec 16

/-- An output colour value (R31). DESIGN CHOICE, log 5: the spec leaves the type of `P_COLOR_TABLE`'s results open. -/
abbrev Color := BitVec 32

/-- A sparse memory: (address, value) pairs, addresses strictly rising, no value equal to 0, which is what an
unlisted address reads as (log 3). `Memory 8` is a list of `Host.Cell`. -/
abbrev Memory (w : Nat) := List (Nat × BitVec w)

/-- A byte memory. -/
abbrev ByteMemory := List Host.Cell

/-- The frame buffer: 240 rows of 256 colour values (R8, R31), each row a sparse memory. -/
abbrev FrameBuffer := Vector (Memory 32) 240

end Sys2Proof
end

