-- ==== Sys2Proof/Syntax.lean ====
section
/-! DEFINITION. The operations of the block: the transaction word with its operand (R53), the reasons of a refusal
(R143), and one constructor of `Instr` for each row of spec/opcode_table.json. -/

namespace Sys2Proof

/-- One call of the driver: a transaction word and the operand that travels with it (R53). `data` is the byte of a
write and of `BUTTONS`; `x` and `y` are the column and row of `FBREAD`; an operation that takes no operand ignores
them. -/
structure Call where
  tw   : BitVec 20
  data : Byte
  x    : Nat
  y    : Nat
  deriving DecidableEq, Repr

/-- The refusal reasons of R143, in the order of their codes 1 to 9. -/
inductive RefuseReason where
  /-- `CART.mapperNumber` is not 0 and has no variant (R116). -/
  | unsupportedMapper
  /-- fixed variant, `len(CART.prg)` not 16384 or 32768 (R124). -/
  | unsupportedPrgSize
  /-- fixed variant, CHR ROM of a length other than 8192 (R124). -/
  | unsupportedChrSize
  /-- fixed variant, `CART.chrIsRam` with `P_CHR_RAM_FIXED = refuse` (R124). -/
  | unsupportedChrRam
  /-- transaction word with `S = 11` (R68 a). -/
  | reservedSpace
  /-- transaction word with `P` or `W` set where it must be 0 (R68 b). -/
  | reservedBits
  /-- host call number above 4 (R68 d). -/
  | unknownHostCall
  /-- CPU address that the block does not decode (R68 e). -/
  | notInBlock
  /-- `FBREAD` with a column above 255 or a row above 239 (R156). -/
  | noSuchPixel
  deriving DecidableEq, Repr, Inhabited

/-- The operations, one constructor for each row of spec/opcode_table.json, in the table's order. `mirror` is
`A[12:3]` of a PPU port address, which the decoding of R55 ignores; `b` is the byte written; `a` is the row's free
address bits. -/
inductive Instr where
  | ppuctrlW    (mirror : BitVec 10) (b : Byte)
  | ppuctrlR    (mirror : BitVec 10)
  | ppumaskW    (mirror : BitVec 10) (b : Byte)
  | ppumaskR    (mirror : BitVec 10)
  | ppustatusR  (mirror : BitVec 10)
  | ppustatusW  (mirror : BitVec 10) (b : Byte)
  | oamaddrW    (mirror : BitVec 10) (b : Byte)
  | oamaddrR    (mirror : BitVec 10)
  | oamdataR    (mirror : BitVec 10)
  | oamdataW    (mirror : BitVec 10) (b : Byte)
  | ppuscrollW  (mirror : BitVec 10) (b : Byte)
  | ppuscrollR  (mirror : BitVec 10)
  | ppuaddrW    (mirror : BitVec 10) (b : Byte)
  | ppuaddrR    (mirror : BitVec 10)
  | ppudataR    (mirror : BitVec 10)
  | ppudataW    (mirror : BitVec 10) (b : Byte)
  | oamdmaW     (n : Byte)
  | oamdmaR
  | ctrlStrobeW (b : Byte)
  | ctrl1R
  | ctrl2R
  | prgR        (a : BitVec 15)
  | prgW        (a : BitVec 15) (b : Byte)
  | pbPatR      (a : BitVec 13)
  | pbNtR       (a : BitVec 12)
  | pbNtR3000   (a : BitVec 11)
  | pbNtR3800   (a : BitVec 10)
  | pbNtR3C00   (a : BitVec 9)
  | pbNtR3E00   (a : BitVec 8)
  | pbPalR      (a : BitVec 8)
  | pbOodR      (a : BitVec 14)
  | pbOodR8000  (a : BitVec 15)
  | pbPatW      (a : BitVec 13) (b : Byte)
  | pbNtW       (a : BitVec 12) (b : Byte)
  | pbNtW3000   (a : BitVec 11) (b : Byte)
  | pbNtW3800   (a : BitVec 10) (b : Byte)
  | pbNtW3C00   (a : BitVec 9) (b : Byte)
  | pbNtW3E00   (a : BitVec 8) (b : Byte)
  | pbPalW      (a : BitVec 8) (b : Byte)
  | pbOodW      (a : BitVec 14) (b : Byte)
  | pbOodW8000  (a : BitVec 15) (b : Byte)
  | pbRdpal     (i : BitVec 5)
  | cycle
  | reset
  | buttons1    (bitmap : Byte)
  | buttons2    (bitmap : Byte)
  | fbread      (x y : Nat)
  deriving DecidableEq, Repr

end Sys2Proof
end

