-- ==== Sys2Proof/WellFormed.lean ====
section
/-! DEFINITION. Which operations have every operand in the range the spec gives it. Every operand but those of
`FBREAD` is a field of fixed width, so its type already holds it in range. -/

namespace Sys2Proof

/-- R54: the column of `FBREAD` is in 0..255. -/
def Instr.columnOk : Instr → Bool
  | .fbread x _ => decide (x ≤ 255)
  | _ => true

/-- R54: the row of `FBREAD` is in 0..239. -/
def Instr.rowOk : Instr → Bool
  | .fbread _ y => decide (y ≤ 239)
  | _ => true

/-- Every operand is in the range the spec gives it. An operation that is not well-formed still decodes and runs:
it is refused with `NoSuchPixel` (R156). -/
def Instr.wellFormed (i : Instr) : Bool := i.columnOk && i.rowOk

end Sys2Proof
end

