-- ==== Sys2Proof/Decode.lean ====
section
/-! DEFINITION. Decoding a transaction word to one row of spec/opcode_table.json or to a reserved outcome (R67, R68),
the encoder, and the table itself. -/

namespace Sys2Proof

/-- What decoding a call gives (R67): an operation, a refusal of R68 (a), (b), (d), (e), or the fault
`BusOutOfDomain` of R68 (c). The addresses of R68 (f) have rows of their own (`PB_OOD_R`, `PB_OOD_W`). -/
inductive Decoded where
  | instr (i : Instr)
  | refused (r : RefuseReason)
  | paletteOutOfDomain
  deriving DecidableEq, Repr

/-- `TW[19:18]`, the space `S` (R53). -/
def twSpace (tw : BitVec 20) : BitVec 2 := tw.extractLsb' 18 2

/-- `TW[17]`, the bit `P` (R53). -/
def twP (tw : BitVec 20) : BitVec 1 := tw.extractLsb' 17 1

/-- `TW[16]`, the bit `W` (R53). -/
def twW (tw : BitVec 20) : BitVec 1 := tw.extractLsb' 16 1

/-- `TW[15:0]`, the address `A` (R53). -/
def twA (tw : BitVec 20) : Addr := tw.extractLsb' 0 16

/-- The read of PPU port `port` (R55): its listed read, or the read of a write-only port (R86). -/
def decodePortRead (port : BitVec 3) (mirror : BitVec 10) : Instr :=
  if port = 0#3 then .ppuctrlR mirror
  else if port = 1#3 then .ppumaskR mirror
  else if port = 2#3 then .ppustatusR mirror
  else if port = 3#3 then .oamaddrR mirror
  else if port = 4#3 then .oamdataR mirror
  else if port = 5#3 then .ppuscrollR mirror
  else if port = 6#3 then .ppuaddrR mirror
  else .ppudataR mirror

/-- The write of byte `b` to PPU port `port` (R55, R77). -/
def decodePortWrite (port : BitVec 3) (mirror : BitVec 10) (b : Byte) : Instr :=
  if port = 0#3 then .ppuctrlW mirror b
  else if port = 1#3 then .ppumaskW mirror b
  else if port = 2#3 then .ppustatusW mirror b
  else if port = 3#3 then .oamaddrW mirror b
  else if port = 4#3 then .oamdataW mirror b
  else if port = 5#3 then .ppuscrollW mirror b
  else if port = 6#3 then .ppuaddrW mirror b
  else .ppudataW mirror b

/-- A CPU-bus read of address `a` (R55); any other address is `NotInBlock` (R68 e). -/
def decodeCpuRead (a : Addr) : Decoded :=
  if a.extractLsb' 13 3 = 1#3 then .instr (decodePortRead (a.extractLsb' 0 3) (a.extractLsb' 3 10))
  else if a = 0x4014#16 then .instr .oamdmaR
  else if a = 0x4016#16 then .instr .ctrl1R
  else if a = 0x4017#16 then .instr .ctrl2R
  else if a.extractLsb' 15 1 = 1#1 then .instr (.prgR (a.extractLsb' 0 15))
  else .refused .notInBlock

/-- A CPU-bus write of byte `b` to address `a` (R55); a write to `$4017` is `NotInBlock` too (R68 e). -/
def decodeCpuWrite (a : Addr) (b : Byte) : Decoded :=
  if a.extractLsb' 13 3 = 1#3 then .instr (decodePortWrite (a.extractLsb' 0 3) (a.extractLsb' 3 10) b)
  else if a = 0x4014#16 then .instr (.oamdmaW b)
  else if a = 0x4016#16 then .instr (.ctrlStrobeW b)
  else if a.extractLsb' 15 1 = 1#1 then .instr (.prgW (a.extractLsb' 0 15) b)
  else .refused .notInBlock

/-- A PictureBus read of address `a`: the region of R131 decides the row (R67). -/
def decodeBusRead (a : Addr) : Instr :=
  if a.extractLsb' 15 1 = 1#1 then .pbOodR8000 (a.extractLsb' 0 15)
  else if a.extractLsb' 14 1 = 1#1 then .pbOodR (a.extractLsb' 0 14)
  else if a.extractLsb' 13 1 = 0#1 then .pbPatR (a.extractLsb' 0 13)
  else if a.extractLsb' 12 1 = 0#1 then .pbNtR (a.extractLsb' 0 12)
  else if a.extractLsb' 11 1 = 0#1 then .pbNtR3000 (a.extractLsb' 0 11)
  else if a.extractLsb' 10 1 = 0#1 then .pbNtR3800 (a.extractLsb' 0 10)
  else if a.extractLsb' 9 1 = 0#1 then .pbNtR3C00 (a.extractLsb' 0 9)
  else if a.extractLsb' 8 1 = 0#1 then .pbNtR3E00 (a.extractLsb' 0 8)
  else .pbPalR (a.extractLsb' 0 8)

/-- A PictureBus write of byte `b` to address `a`: the region of R131 decides the row (R67). -/
def decodeBusWrite (a : Addr) (b : Byte) : Instr :=
  if a.extractLsb' 15 1 = 1#1 then .pbOodW8000 (a.extractLsb' 0 15) b
  else if a.extractLsb' 14 1 = 1#1 then .pbOodW (a.extractLsb' 0 14) b
  else if a.extractLsb' 13 1 = 0#1 then .pbPatW (a.extractLsb' 0 13) b
  else if a.extractLsb' 12 1 = 0#1 then .pbNtW (a.extractLsb' 0 12) b
  else if a.extractLsb' 11 1 = 0#1 then .pbNtW3000 (a.extractLsb' 0 11) b
  else if a.extractLsb' 10 1 = 0#1 then .pbNtW3800 (a.extractLsb' 0 10) b
  else if a.extractLsb' 9 1 = 0#1 then .pbNtW3C00 (a.extractLsb' 0 9) b
  else if a.extractLsb' 8 1 = 0#1 then .pbNtW3E00 (a.extractLsb' 0 8) b
  else .pbPalW (a.extractLsb' 0 8) b

/-- The direct palette read of index `a`; an index above 31 is the fault of R68 (c). -/
def decodePaletteRead (a : Addr) : Decoded :=
  if a.extractLsb' 5 11 = 0#11 then .instr (.pbRdpal (a.extractLsb' 0 5)) else .paletteOutOfDomain

/-- Host call number `c.tw[15:0]` (R54); a number above 4 is `UnknownHostCall` (R68 d). -/
def decodeHostCall (c : Call) : Decoded :=
  let n := twA c.tw
  if n = 0#16 then .instr .cycle
  else if n = 1#16 then .instr .reset
  else if n = 2#16 then .instr (.buttons1 c.data)
  else if n = 3#16 then .instr (.buttons2 c.data)
  else if n = 4#16 then .instr (.fbread c.x c.y)
  else .refused .unknownHostCall

/-- Decoding: total on every call (R67, R68). R68 gives no order of its clauses for a word that meets two of them; the
model tests the bits first: `P` or `W` set where it must be 0 is `ReservedBits`, also with a call number above 4 (b and d) or
at an address that is not in the block (b and e). DESIGN CHOICE, log 16. -/
def decode (c : Call) : Decoded :=
  if twSpace c.tw = 0#2 then
    if twP c.tw = 1#1 then .refused .reservedBits
    else if twW c.tw = 1#1 then decodeCpuWrite (twA c.tw) c.data
    else decodeCpuRead (twA c.tw)
  else if twSpace c.tw = 1#2 then
    if twP c.tw = 1#1 then
      if twW c.tw = 1#1 then .refused .reservedBits else decodePaletteRead (twA c.tw)
    else if twW c.tw = 1#1 then .instr (decodeBusWrite (twA c.tw) c.data)
    else .instr (decodeBusRead (twA c.tw))
  else if twSpace c.tw = 2#2 then
    if twP c.tw = 1#1 then .refused .reservedBits
    else if twW c.tw = 1#1 then .refused .reservedBits
    else decodeHostCall c
  else .refused .reservedSpace

/-- The transaction word with the given fields (R53). -/
def twOf (space : BitVec 2) (p w : BitVec 1) (a : Addr) : BitVec 20 := space ++ (p ++ (w ++ a))

/-- The CPU address of PPU port `port` at mirror `mirror`: `A[15:13] = 001` (R55). -/
def portAddr (mirror : BitVec 10) (port : BitVec 3) : Addr := 1#3 ++ (mirror ++ port)

/-- A call with no operand. -/
def callPlain (tw : BitVec 20) : Call := { tw := tw, data := 0#8, x := 0, y := 0 }

/-- A call with a data byte. -/
def callData (tw : BitVec 20) (b : Byte) : Call := { tw := tw, data := b, x := 0, y := 0 }

/-- The encoder, from the address map of R55, the regions of R131 and the host calls of R54. -/
def encode : Instr → Call
  | .ppuctrlW m b    => callData (twOf 0#2 0#1 1#1 (portAddr m 0#3)) b
  | .ppuctrlR m      => callPlain (twOf 0#2 0#1 0#1 (portAddr m 0#3))
  | .ppumaskW m b    => callData (twOf 0#2 0#1 1#1 (portAddr m 1#3)) b
  | .ppumaskR m      => callPlain (twOf 0#2 0#1 0#1 (portAddr m 1#3))
  | .ppustatusR m    => callPlain (twOf 0#2 0#1 0#1 (portAddr m 2#3))
  | .ppustatusW m b  => callData (twOf 0#2 0#1 1#1 (portAddr m 2#3)) b
  | .oamaddrW m b    => callData (twOf 0#2 0#1 1#1 (portAddr m 3#3)) b
  | .oamaddrR m      => callPlain (twOf 0#2 0#1 0#1 (portAddr m 3#3))
  | .oamdataR m      => callPlain (twOf 0#2 0#1 0#1 (portAddr m 4#3))
  | .oamdataW m b    => callData (twOf 0#2 0#1 1#1 (portAddr m 4#3)) b
  | .ppuscrollW m b  => callData (twOf 0#2 0#1 1#1 (portAddr m 5#3)) b
  | .ppuscrollR m    => callPlain (twOf 0#2 0#1 0#1 (portAddr m 5#3))
  | .ppuaddrW m b    => callData (twOf 0#2 0#1 1#1 (portAddr m 6#3)) b
  | .ppuaddrR m      => callPlain (twOf 0#2 0#1 0#1 (portAddr m 6#3))
  | .ppudataR m      => callPlain (twOf 0#2 0#1 0#1 (portAddr m 7#3))
  | .ppudataW m b    => callData (twOf 0#2 0#1 1#1 (portAddr m 7#3)) b
  | .oamdmaW n       => callData (twOf 0#2 0#1 1#1 0x4014#16) n
  | .oamdmaR         => callPlain (twOf 0#2 0#1 0#1 0x4014#16)
  | .ctrlStrobeW b   => callData (twOf 0#2 0#1 1#1 0x4016#16) b
  | .ctrl1R          => callPlain (twOf 0#2 0#1 0#1 0x4016#16)
  | .ctrl2R          => callPlain (twOf 0#2 0#1 0#1 0x4017#16)
  | .prgR a          => callPlain (twOf 0#2 0#1 0#1 (1#1 ++ a))
  | .prgW a b        => callData (twOf 0#2 0#1 1#1 (1#1 ++ a)) b
  | .pbPatR a        => callPlain (twOf 1#2 0#1 0#1 (0x0#3 ++ a))
  | .pbNtR a         => callPlain (twOf 1#2 0#1 0#1 (0x2#4 ++ a))
  | .pbNtR3000 a     => callPlain (twOf 1#2 0#1 0#1 (0x6#5 ++ a))
  | .pbNtR3800 a     => callPlain (twOf 1#2 0#1 0#1 (0xE#6 ++ a))
  | .pbNtR3C00 a     => callPlain (twOf 1#2 0#1 0#1 (0x1E#7 ++ a))
  | .pbNtR3E00 a     => callPlain (twOf 1#2 0#1 0#1 (0x3E#8 ++ a))
  | .pbPalR a        => callPlain (twOf 1#2 0#1 0#1 (0x3F#8 ++ a))
  | .pbOodR a        => callPlain (twOf 1#2 0#1 0#1 (1#2 ++ a))
  | .pbOodR8000 a    => callPlain (twOf 1#2 0#1 0#1 (1#1 ++ a))
  | .pbPatW a b      => callData (twOf 1#2 0#1 1#1 (0x0#3 ++ a)) b
  | .pbNtW a b       => callData (twOf 1#2 0#1 1#1 (0x2#4 ++ a)) b
  | .pbNtW3000 a b   => callData (twOf 1#2 0#1 1#1 (0x6#5 ++ a)) b
  | .pbNtW3800 a b   => callData (twOf 1#2 0#1 1#1 (0xE#6 ++ a)) b
  | .pbNtW3C00 a b   => callData (twOf 1#2 0#1 1#1 (0x1E#7 ++ a)) b
  | .pbNtW3E00 a b   => callData (twOf 1#2 0#1 1#1 (0x3E#8 ++ a)) b
  | .pbPalW a b      => callData (twOf 1#2 0#1 1#1 (0x3F#8 ++ a)) b
  | .pbOodW a b      => callData (twOf 1#2 0#1 1#1 (1#2 ++ a)) b
  | .pbOodW8000 a b  => callData (twOf 1#2 0#1 1#1 (1#1 ++ a)) b
  | .pbRdpal i       => callPlain (twOf 1#2 1#1 0#1 (0#11 ++ i))
  | .cycle           => callPlain (twOf 2#2 0#1 0#1 0#16)
  | .reset           => callPlain (twOf 2#2 0#1 0#1 1#16)
  | .buttons1 b      => callData (twOf 2#2 0#1 0#1 2#16) b
  | .buttons2 b      => callData (twOf 2#2 0#1 0#1 3#16) b
  | .fbread x y      => { tw := twOf 2#2 0#1 0#1 4#16, data := 0#8, x := x, y := y }

/-- The mnemonic of spec/opcode_table.json. -/
def Instr.mnemonic : Instr → String
  | .ppuctrlW _ _    => "PPUCTRL_W"
  | .ppuctrlR _      => "PPUCTRL_R"
  | .ppumaskW _ _    => "PPUMASK_W"
  | .ppumaskR _      => "PPUMASK_R"
  | .ppustatusR _    => "PPUSTATUS_R"
  | .ppustatusW _ _  => "PPUSTATUS_W"
  | .oamaddrW _ _    => "OAMADDR_W"
  | .oamaddrR _      => "OAMADDR_R"
  | .oamdataR _      => "OAMDATA_R"
  | .oamdataW _ _    => "OAMDATA_W"
  | .ppuscrollW _ _  => "PPUSCROLL_W"
  | .ppuscrollR _    => "PPUSCROLL_R"
  | .ppuaddrW _ _    => "PPUADDR_W"
  | .ppuaddrR _      => "PPUADDR_R"
  | .ppudataR _      => "PPUDATA_R"
  | .ppudataW _ _    => "PPUDATA_W"
  | .oamdmaW _       => "OAMDMA_W"
  | .oamdmaR         => "OAMDMA_R"
  | .ctrlStrobeW _   => "CTRL_STROBE_W"
  | .ctrl1R          => "CTRL1_R"
  | .ctrl2R          => "CTRL2_R"
  | .prgR _          => "PRG_R"
  | .prgW _ _        => "PRG_W"
  | .pbPatR _        => "PB_PAT_R"
  | .pbNtR _         => "PB_NT_R"
  | .pbNtR3000 _     => "PB_NT_R.3000"
  | .pbNtR3800 _     => "PB_NT_R.3800"
  | .pbNtR3C00 _     => "PB_NT_R.3C00"
  | .pbNtR3E00 _     => "PB_NT_R.3E00"
  | .pbPalR _        => "PB_PAL_R"
  | .pbOodR _        => "PB_OOD_R"
  | .pbOodR8000 _    => "PB_OOD_R.8000"
  | .pbPatW _ _      => "PB_PAT_W"
  | .pbNtW _ _       => "PB_NT_W"
  | .pbNtW3000 _ _   => "PB_NT_W.3000"
  | .pbNtW3800 _ _   => "PB_NT_W.3800"
  | .pbNtW3C00 _ _   => "PB_NT_W.3C00"
  | .pbNtW3E00 _ _   => "PB_NT_W.3E00"
  | .pbPalW _ _      => "PB_PAL_W"
  | .pbOodW _ _      => "PB_OOD_W"
  | .pbOodW8000 _ _  => "PB_OOD_W.8000"
  | .pbRdpal _       => "PB_RDPAL"
  | .cycle           => "CYCLE"
  | .reset           => "RESET"
  | .buttons1 _      => "BUTTONS1"
  | .buttons2 _      => "BUTTONS2"
  | .fbread _ _      => "FBREAD"

/-- One row of spec/opcode_table.json: the row applies iff `TW & mask = match` (R67). -/
structure OpcodeRow where
  mnemonic : String
  pattern  : BitVec 20
  mask     : BitVec 20
  deriving DecidableEq, Repr

/-- R67: the CPU-bus rows. -/
def cpuRows : List OpcodeRow :=
  [ { mnemonic := "PPUCTRL_W", pattern := 0x12000#20, mask := 0xFE007#20 },
    { mnemonic := "PPUCTRL_R", pattern := 0x02000#20, mask := 0xFE007#20 },
    { mnemonic := "PPUMASK_W", pattern := 0x12001#20, mask := 0xFE007#20 },
    { mnemonic := "PPUMASK_R", pattern := 0x02001#20, mask := 0xFE007#20 },
    { mnemonic := "PPUSTATUS_R", pattern := 0x02002#20, mask := 0xFE007#20 },
    { mnemonic := "PPUSTATUS_W", pattern := 0x12002#20, mask := 0xFE007#20 },
    { mnemonic := "OAMADDR_W", pattern := 0x12003#20, mask := 0xFE007#20 },
    { mnemonic := "OAMADDR_R", pattern := 0x02003#20, mask := 0xFE007#20 },
    { mnemonic := "OAMDATA_R", pattern := 0x02004#20, mask := 0xFE007#20 },
    { mnemonic := "OAMDATA_W", pattern := 0x12004#20, mask := 0xFE007#20 },
    { mnemonic := "PPUSCROLL_W", pattern := 0x12005#20, mask := 0xFE007#20 },
    { mnemonic := "PPUSCROLL_R", pattern := 0x02005#20, mask := 0xFE007#20 },
    { mnemonic := "PPUADDR_W", pattern := 0x12006#20, mask := 0xFE007#20 },
    { mnemonic := "PPUADDR_R", pattern := 0x02006#20, mask := 0xFE007#20 },
    { mnemonic := "PPUDATA_R", pattern := 0x02007#20, mask := 0xFE007#20 },
    { mnemonic := "PPUDATA_W", pattern := 0x12007#20, mask := 0xFE007#20 },
    { mnemonic := "OAMDMA_W", pattern := 0x14014#20, mask := 0xFFFFF#20 },
    { mnemonic := "OAMDMA_R", pattern := 0x04014#20, mask := 0xFFFFF#20 },
    { mnemonic := "CTRL_STROBE_W", pattern := 0x14016#20, mask := 0xFFFFF#20 },
    { mnemonic := "CTRL1_R", pattern := 0x04016#20, mask := 0xFFFFF#20 },
    { mnemonic := "CTRL2_R", pattern := 0x04017#20, mask := 0xFFFFF#20 },
    { mnemonic := "PRG_R", pattern := 0x08000#20, mask := 0xF8000#20 },
    { mnemonic := "PRG_W", pattern := 0x18000#20, mask := 0xF8000#20 } ]

/-- R67: the PictureBus read rows. -/
def busReadRows : List OpcodeRow :=
  [ { mnemonic := "PB_PAT_R", pattern := 0x40000#20, mask := 0xFE000#20 },
    { mnemonic := "PB_NT_R", pattern := 0x42000#20, mask := 0xFF000#20 },
    { mnemonic := "PB_NT_R.3000", pattern := 0x43000#20, mask := 0xFF800#20 },
    { mnemonic := "PB_NT_R.3800", pattern := 0x43800#20, mask := 0xFFC00#20 },
    { mnemonic := "PB_NT_R.3C00", pattern := 0x43C00#20, mask := 0xFFE00#20 },
    { mnemonic := "PB_NT_R.3E00", pattern := 0x43E00#20, mask := 0xFFF00#20 },
    { mnemonic := "PB_PAL_R", pattern := 0x43F00#20, mask := 0xFFF00#20 },
    { mnemonic := "PB_OOD_R", pattern := 0x44000#20, mask := 0xFC000#20 },
    { mnemonic := "PB_OOD_R.8000", pattern := 0x48000#20, mask := 0xF8000#20 } ]

/-- R67: the PictureBus write rows and the palette read. -/
def busWriteRows : List OpcodeRow :=
  [ { mnemonic := "PB_PAT_W", pattern := 0x50000#20, mask := 0xFE000#20 },
    { mnemonic := "PB_NT_W", pattern := 0x52000#20, mask := 0xFF000#20 },
    { mnemonic := "PB_NT_W.3000", pattern := 0x53000#20, mask := 0xFF800#20 },
    { mnemonic := "PB_NT_W.3800", pattern := 0x53800#20, mask := 0xFFC00#20 },
    { mnemonic := "PB_NT_W.3C00", pattern := 0x53C00#20, mask := 0xFFE00#20 },
    { mnemonic := "PB_NT_W.3E00", pattern := 0x53E00#20, mask := 0xFFF00#20 },
    { mnemonic := "PB_PAL_W", pattern := 0x53F00#20, mask := 0xFFF00#20 },
    { mnemonic := "PB_OOD_W", pattern := 0x54000#20, mask := 0xFC000#20 },
    { mnemonic := "PB_OOD_W.8000", pattern := 0x58000#20, mask := 0xF8000#20 },
    { mnemonic := "PB_RDPAL", pattern := 0x60000#20, mask := 0xFFFE0#20 } ]

/-- R67: the host-call rows. -/
def hostRows : List OpcodeRow :=
  [ { mnemonic := "CYCLE", pattern := 0x80000#20, mask := 0xFFFFF#20 },
    { mnemonic := "RESET", pattern := 0x80001#20, mask := 0xFFFFF#20 },
    { mnemonic := "BUTTONS1", pattern := 0x80002#20, mask := 0xFFFFF#20 },
    { mnemonic := "BUTTONS2", pattern := 0x80003#20, mask := 0xFFFFF#20 },
    { mnemonic := "FBREAD", pattern := 0x80004#20, mask := 0xFFFFF#20 } ]

/-- The rows of spec/opcode_table.json (R67), in the table's order. -/
def opcodeRows : List OpcodeRow := cpuRows ++ busReadRows ++ busWriteRows ++ hostRows

/-- The call whose bits are `w` (log 11): bits 19..0 are the transaction word, as spec/opcode_table.json numbers them;
the table gives an operand no bits, so the model lays it out above the word's three bytes: bits 31..24 the data byte,
bits 47..32 the column, bits 63..48 the row. -/
def callOfBits (w : Nat) : Call :=
  { tw := BitVec.ofNat 20 w, data := BitVec.ofNat 8 (w / 2 ^ 24), x := w / 2 ^ 32 % 2 ^ 16, y := w / 2 ^ 48 % 2 ^ 16 }

/-- The operation this decoder reads from an instruction whose low `nbits` bits are those of `w`, every bit above them
0; none where the word is a reserved one (R68). -/
def decodeTableWord (nbits w : Nat) : Option Instr :=
  match decode (callOfBits (w % 2 ^ nbits)) with
  | .instr i => some i
  | .refused _ => none
  | .paletteOutOfDomain => none

end Sys2Proof
end

