-- ==== Sys2Proof/Config.lean ====
section
/-! DEFINITION. The configuration of a session (R6), the implementation parameters (R7), the abstract mapper variant
(R117), and the free constants: the values the spec leaves open and no proof can see. -/

namespace Sys2Proof

/-- `P_LINE_WRAP` (R7, R108): the dot executed after a line end. -/
inductive LineWrap where
  | dot0
  | dot1
  deriving DecidableEq, Repr, Inhabited

/-- `P_RENDER_ENABLE` (R7, R88). -/
inductive RenderEnable where
  | both
  | either
  deriving DecidableEq, Repr, Inhabited

/-- `P_SPRITE_STOP` (R7, R111). -/
inductive SpriteStop where
  | firstCovering
  | firstOpaque
  deriving DecidableEq, Repr, Inhabited

/-- `P_READ_DELAY_ADDR` (R7, R83). -/
inductive ReadDelayAddr where
  | pre
  | post
  deriving DecidableEq, Repr, Inhabited

/-- `P_PALETTE_ALIAS` (R7, R136); `plain` is the spec's value `none`. -/
inductive PaletteAlias where
  | plain
  | hw
  deriving DecidableEq, Repr, Inhabited

/-- `P_CHR_RAM_FIXED` (R7, R124). -/
inductive ChrRamFixed where
  | refuse
  | ram8k
  deriving DecidableEq, Repr, Inhabited

/-- `P_NT_MIRRORING` (R7, R135). -/
inductive Mirroring where
  | horizontal
  | vertical
  | singleLow
  | singleHigh
  deriving DecidableEq, Repr, Inhabited

/-- Where a page view of the fixed variant must end: the two readings that the spec gives, the end of the bank (the spec's
decision D33) and the end of `CART.prg` (R130's pseudocode). They differ only in a two-bank session. The model's own parameter,
DESIGN CHOICE, log 17. -/
inductive PageViewEnd where
  | bank
  | buffer
  deriving DecidableEq, Repr, Inhabited

/-- A byte sequence of the cartridge (R6): its length, and its bytes as a sparse memory. -/
structure Rom where
  size  : Nat
  cells : ByteMemory
  deriving DecidableEq, Repr, Inhabited

/-- The configuration record `CART` (R6). -/
structure Cart where
  prg          : Rom
  chr          : Rom
  chrIsRam     : Bool
  mapperNumber : Nat
  mirroring    : Mirroring
  deriving DecidableEq, Repr, Inhabited

/-- The implementation parameters of R7 that are plain values. `colorTable` is `P_COLOR_TABLE`, a total function from
a 6-bit colour index, written as its 64 results; `mapperNumbers` is the domain of the finite map `P_MAPPER_VARIANTS`, whose
values are `Config.mapperVariant` (log 8). `pageViewEnd` is the model's own parameter (log 17). -/
structure Params where
  lineWrap      : LineWrap
  renderEnable  : RenderEnable
  spriteStop    : SpriteStop
  readDelayAddr : ReadDelayAddr
  resetMask     : Byte
  paletteAlias  : PaletteAlias
  chrRamFixed   : ChrRamFixed
  colorTable    : Vector Color 64
  mapperNumbers : List Nat
  pageViewEnd   : PageViewEnd
  deriving DecidableEq, Repr

/-- The state of a mapper variant other than the fixed one (R34, R117 a): its bank state, as numbers, and its CHR RAM. -/
structure VariantState where
  banks  : List Nat
  chrRam : ByteMemory
  deriving DecidableEq, Repr, Inhabited

/-- Where a variant resolves a pattern address: an offset of `CART.chr` or of its CHR RAM (R117 I3). -/
inductive ChrTarget where
  | rom (offset : Nat)
  | ram (offset : Nat)
  deriving DecidableEq, Repr, Inhabited

/-- What a variant's write does (R117 c): the new bank state, and the CHR RAM offset it stores the byte at, if any. -/
structure VariantWrite where
  banks    : List Nat
  chrStore : Option Nat
  deriving DecidableEq, Repr, Inhabited

/-- The initial state a variant supplies (R34, R117 b): its first bank state, and the first contents of its CHR RAM. -/
structure VariantInit where
  banks  : List Nat
  chrRam : Nat → Byte
  deriving Inhabited

/-- The abstract variant, an element of `P_MAPPER_VARIANTS` (R117). The operations of R115 are given by the offset an
address resolves to (I3) and by the new state of a write (I2); the model makes the accesses, so that a resolution out
of bounds (I1) or an address out of the domain (I4) faults for every variant, and none can touch other state (I5).
A write that answers `none` faults (R117 d). `init` is given the CHR RAM contents of `P_INIT`, and supplies the whole initial
state or refuses the cartridge (R117 b). `bankEnd` is where the bank that an address resolves into ends in `CART.prg`: a page
view that passes it faults (R122, D33). The form of the record is a DESIGN CHOICE, log 8. -/
structure MapperVariant where
  init      : Cart → (Nat → Byte) → Except RefuseReason VariantInit
  prgOffset : Cart → VariantState → Addr → Nat
  bankEnd   : Cart → VariantState → Addr → Nat
  chrTarget : Cart → VariantState → Addr → ChrTarget
  writePRG  : Cart → VariantState → Addr → Byte → Option VariantWrite
  writeCHR  : Cart → VariantState → Addr → Byte → Option VariantWrite
  deriving Inhabited

/-- The variant that `P_MAPPER_VARIANTS` gives to a number of its domain, `Params.mapperNumbers` (R117). Free constant,
log 8. -/
opaque Config.mapperVariant : Nat → MapperVariant

/-- `P_OPEN_READ` (R7, R86): the byte of the draw with the given number. Free value, log 6. -/
opaque Config.openRead : Nat → Byte

/-- `P_CPU_PAGE` (R7, R85): byte `k` of CPU page `page` at the draw with the given number. Free value, log 7. -/
opaque Config.cpuPage : (draw : Nat) → (page k : Byte) → Byte

/-- `P_COLOR_TABLE` of `State.reset` (R7, R113): the spec leaves it open. Free constant, log 5. -/
opaque Config.colorTable : Vector Color 64

/-- The parameters at the defaults of R7, with the given colour table, which has none; page views end by D33 (log 17). -/
def Params.defaults (colors : Vector Color 64) : Params where
  lineWrap := .dot0
  renderEnable := .both
  spriteStop := .firstCovering
  readDelayAddr := .pre
  resetMask := 0x00#8
  paletteAlias := .plain
  chrRamFixed := .refuse
  colorTable := colors
  mapperNumbers := []
  pageViewEnd := .bank

/-- The cartridge `C16` of spec/95_test_vectors.md section 0 with all-zero contents: mapper number 0, 16 KiB of PRG
ROM, 8 KiB of CHR ROM, vertical mirroring. DESIGN CHOICE as the cartridge of `State.reset`, log 4. -/
def Cart.c16 : Cart where
  prg := { size := 16384, cells := [] }
  chr := { size := 8192, cells := [] }
  chrIsRam := false
  mapperNumber := 0
  mirroring := .vertical

end Sys2Proof
end

