-- ==== Sys2Proof/Machine/State.lean ====
section
/-! DEFINITION. The state of the block (R13 to R37) as plain data, the reasons a step can stop, and the state after
construction and reset. -/

namespace Sys2Proof.Machine

/-- The fault reasons of R142, with their codes. A fault has no next state, and after it no operation has one (R36).
Safe: where the model faults, it has no run that goes on. -/
inductive Fault where
  /-- code 1: a PictureBus access at `>= 0x4000`, or `readPalette` with an index above 31; raised by `pbRead`,
  `pbWrite`, `pbReadPalette` and the decoding of R68 (c). Safe. -/
  | busOutOfDomain
  /-- code 2: a mapper operation with an address outside its domain (R123); raised by the mapper operations. Safe. -/
  | mapperOutOfDomain
  /-- code 3: a mapper resolution that passes the end of a cartridge buffer (R117, R130); raised by the mapper
  operations. Safe. -/
  | mapperOutOfBounds
  deriving DecidableEq, Repr

/-- The host's outcome for an operation without a meaning. No arm of `exec` raises it: a refusal of the spec (R143)
has a next state, which `out.refused` marks (log 9). -/
inductive Refusal where
  /-- The model gives the operation no meaning yet; raised by no arm. Safe. -/
  | notModelled (mnemonic : String)
  deriving DecidableEq, Repr

/-- `phase` (R15). -/
inductive Phase where
  | preRender
  | render
  | postRender
  | verticalBlank
  deriving DecidableEq, Repr

/-- `increment`, a value in {1, 32} (R23). -/
inductive VramStep where
  | by1
  | by32
  deriving DecidableEq, Repr

/-- The PPU state (R15 to R31). -/
structure Ppu where
  phase              : Phase
  scanline           : BitVec 9
  dot                : BitVec 9
  evenFrame          : Bool
  v                  : BitVec 15
  t                  : BitVec 15
  fineX              : BitVec 3
  firstWrite         : Bool
  generateInterrupt  : Bool
  longSprites        : Bool
  bgPage             : BitVec 1
  sprPage            : BitVec 1
  increment          : VramStep
  greyscale          : Bool
  showBackground     : Bool
  showSprites        : Bool
  hideEdgeBackground : Bool
  hideEdgeSprites    : Bool
  vblank             : Bool
  sprZeroHit         : Bool
  oam                : ByteMemory
  oamAddr            : Byte
  lineSprites        : List (Fin 64)
  readBuffer         : Byte
  fb                 : FrameBuffer
  deriving DecidableEq, Repr

/-- The PictureBus memories (R33). -/
structure PictureBus where
  ntRam   : ByteMemory
  palette : ByteMemory
  deriving DecidableEq, Repr

/-- The mapper state (R34): the fixed-mapping variant, with its CHR RAM where it was built with one, or the variant
with the given number. -/
inductive Mapper where
  | fixed (oneBank : Bool) (chrRam : Option ByteMemory)
  | variant (number : Nat) (st : VariantState)
  deriving DecidableEq, Repr

/-- One controller (R35). -/
structure Controller where
  isStrobe : Bool
  buttons  : Byte
  bits     : Byte
  deriving DecidableEq, Repr

/-- The diagnostic events of R144. -/
inductive DiagEvent where
  | chrWriteIgnored (a : Addr) (b : Byte)
  | prgWriteIgnored (a : Addr) (b : Byte)
  deriving DecidableEq, Repr

/-- The output records (R36). -/
structure OutRecords where
  nmiCount : Nat
  diagLog  : List DiagEvent
  faulted  : Option Fault
  refused  : Option RefuseReason
  deriving DecidableEq, Repr

/-- What an operation gives back beside the next state (R11, R146, R156): nothing, the byte of a read, the colour of
`FBREAD`, the interrupt event of a `CYCLE`, or its refusal (R143). -/
inductive OpResult where
  | nothing
  | byte (b : Byte)
  | color (c : Color)
  | interrupt
  | refused (r : RefuseReason)
  deriving DecidableEq, Repr

/-- The whole state `Σ` (R13), with the session's configuration and parameters, which no operation changes (R6, R7;
log 2), and three fields of the model's own: the calls still to make (log 1), what the last operation gave back
(log 10), and the number of free values drawn (log 6). -/
structure State where
  ppu      : Ppu
  pb       : PictureBus
  mapper   : Mapper
  ctrl1    : Controller
  ctrl2    : Controller
  out      : OutRecords
  cart     : Cart
  par      : Params
  schedule : List Call
  result   : OpResult
  draws    : Nat
  deriving DecidableEq, Repr

/-- The PPU right after construction: the values of R37 under `P_RESET_MASK = 0x00`, and the zero contents of log 3. -/
def Ppu.powerOn : Ppu where
  phase := .preRender
  scanline := 0#9
  dot := 0#9
  evenFrame := true
  v := 0#15
  t := 0#15
  fineX := 0#3
  firstWrite := true
  generateInterrupt := false
  longSprites := false
  bgPage := 0#1
  sprPage := 0#1
  increment := .by1
  greyscale := false
  showBackground := false
  showSprites := false
  hideEdgeBackground := true
  hideEdgeSprites := true
  vblank := false
  sprZeroHit := false
  oam := []
  oamAddr := 0#8
  lineSprites := []
  readBuffer := 0#8
  fb := Vector.replicate 240 []

/-- A controller at power-on (R35). -/
def Controller.powerOn : Controller where
  isStrobe := false
  buttons := 0#8
  bits := 0#8

/-- The output records at power-on (R36). -/
def OutRecords.powerOn : OutRecords where
  nmiCount := 0
  diagLog := []
  faulted := none
  refused := none

/-- The state right after construction and reset (R37, R158): the cartridge of log 4, the default parameters of R7
with the free colour table of log 5, the memory contents of log 3, and no call made or waiting (log 1). -/
def State.reset : State where
  ppu := Ppu.powerOn
  pb := { ntRam := [], palette := [] }
  mapper := .fixed true none
  ctrl1 := Controller.powerOn
  ctrl2 := Controller.powerOn
  out := OutRecords.powerOn
  cart := Cart.c16
  par := Params.defaults Config.colorTable
  schedule := []
  result := .nothing
  draws := 0

end Sys2Proof.Machine
end

