-- ==== Sys2Proof/Machine/Ops.lean ====
section
/-! DEFINITION. The shared operations: sparse memories, the three outcomes of R11 with the diagnostic and the interrupt
signal (spec/60_exceptions.md), and fetching the next call of the driver. -/

namespace Sys2Proof

/-- The value at address `a`; an unlisted address reads as 0 (log 3). -/
def Memory.read {w : Nat} : Memory w → Nat → BitVec w
  | [], _ => 0#w
  | (k, b) :: m, a => if k = a then b else Memory.read m a

/-- `m` with the non-zero value `b` listed at `a`. -/
def Memory.insert {w : Nat} : Memory w → Nat → BitVec w → Memory w
  | [], a, b => [(a, b)]
  | (k, c) :: m, a, b =>
    if a < k then (a, b) :: (k, c) :: m
    else if a = k then (a, b) :: m
    else (k, c) :: Memory.insert m a b

/-- `m` with nothing listed at `a`. -/
def Memory.erase {w : Nat} : Memory w → Nat → Memory w
  | [], _ => []
  | (k, c) :: m, a => if k = a then Memory.erase m a else (k, c) :: Memory.erase m a

/-- `m` with `b` at address `a`, in canonical form. -/
def Memory.write {w : Nat} (m : Memory w) (a : Nat) (b : BitVec w) : Memory w :=
  if b = 0#w then Memory.erase m a else Memory.insert m a b

/-- The memory of `n` entries whose entry `i` is `f i`. -/
def Memory.ofFn {w : Nat} (n : Nat) (f : Nat → BitVec w) : Memory w :=
  (List.range n).filterMap fun i => if f i = 0#w then none else some (i, f i)

/-- The canonical form of a memory of `n` entries: addresses strictly rising and below `n`, no value equal to what an
unlisted address reads as. -/
abbrev Memory.wf {w : Nat} (n : Nat) (m : Memory w) : Prop :=
  m.Pairwise (fun p q => p.1 < q.1) ∧ ∀ p ∈ m, p.1 < n ∧ p.2 ≠ 0#w

end Sys2Proof

namespace Sys2Proof.Machine

/-- The outcome of one operation (R11). -/
abbrev Outcome := Host.Outcome State Fault Refusal

/-- R36, R142: once `out.faulted` is set, no operation has a next state. Every operation runs under this check. -/
def live (s : State) (k : Outcome) : Outcome :=
  match s.out.faulted with
  | some r => .fault r
  | none => k

/-- The next state, with what the operation gives back (R11). -/
def finish (s : State) (r : OpResult) : Outcome := .next { s with result := r }

/-- `raise Fault(reason)` where it arose, or the next state with what the operation gives back (R10, R142). -/
def finishOr (x : Except Fault State) (r : State → OpResult) : Outcome :=
  match x with
  | .ok s => finish s (r s)
  | .error f => .fault f

/-- `refuse(reason)` (R143): no state changes but the mark `out.refused`, which keeps the first reason of the run. The
operation ends in a next state, since later operations still run (R36; log 9). -/
def refuse (s : State) (r : RefuseReason) : Outcome :=
  finish { s with out := { s.out with refused := s.out.refused.or (some r) } } (.refused r)

/-- `diag(event)` (R144). -/
def diag (s : State) (e : DiagEvent) : State :=
  { s with out := { s.out with diagLog := s.out.diagLog ++ [e] } }

/-- `emit NMI` (R146): the callback is the event counter. -/
def emitNmi (s : State) : State :=
  { s with out := { s.out with nmiCount := s.out.nmiCount + 1 } }

/-- One draw of a free value (R86, R85): the number of the draw is taken, and the counter moves on. -/
def drawn (s : State) : State := { s with draws := s.draws + 1 }

/-- The next call of the driver and the state without it; none when the driver makes no call (log 1). -/
def fetch (s : State) : Option (Call × State) :=
  match s.schedule with
  | [] => none
  | c :: rest => some (c, { s with schedule := rest })

/-- `s` with the call `c` as the next one the driver makes (log 1). -/
def withCall (s : State) (c : Call) : State := { s with schedule := c :: s.schedule }

end Sys2Proof.Machine
end

