-- ==== Sys2Proof/Machine/Controllers.lean ====
section
/-! DEFINITION. The controllers (spec/45_controller.md, R137 to R141): the strobe, the serial read, and the host's
bitmap writes. -/

namespace Sys2Proof.Machine

/-- `strobe(c, b)` (R138): a latch at the 1-to-0 transition of bit 0. -/
def strobe (c : Controller) (b : Byte) : Controller :=
  { c with
    bits := if c.isStrobe && !b.getLsbD 0 then c.buttons else c.bits
    isStrobe := b.getLsbD 0 }

/-- What `read(c)` gives back (R139): bit 0 of the buttons while strobing, else of the shift register. -/
def serialByte (c : Controller) : Byte :=
  (BitVec.ofBool (if c.isStrobe then c.buttons.getLsbD 0 else c.bits.getLsbD 0)).setWidth 8

/-- What `read(c)` does to the controller (R139): a re-latch while strobing, else a shift that brings in a 1. -/
def serialShift (c : Controller) : Controller :=
  { c with bits := if c.isStrobe then c.buttons else (c.bits >>> 1) ||| 0x80#8 }

/-- CPU write to `$4016` (R138, R140): both controllers. -/
def execCtrlStrobeW (b : Byte) (s : State) : Outcome :=
  live s <| finish { s with ctrl1 := strobe s.ctrl1 b, ctrl2 := strobe s.ctrl2 b } .nothing

/-- CPU read of `$4016` (R139, R140). -/
def execCtrl1R (s : State) : Outcome :=
  live s <| finish { s with ctrl1 := serialShift s.ctrl1 } (.byte (serialByte s.ctrl1))

/-- CPU read of `$4017` (R139, R140). -/
def execCtrl2R (s : State) : Outcome :=
  live s <| finish { s with ctrl2 := serialShift s.ctrl2 } (.byte (serialByte s.ctrl2))

/-- `write_buttons(bitmap)` on controller 1 (R137). -/
def execButtons1 (bitmap : Byte) (s : State) : Outcome :=
  live s <| finish { s with ctrl1 := { s.ctrl1 with buttons := bitmap } } .nothing

/-- `write_buttons(bitmap)` on controller 2 (R137). -/
def execButtons2 (bitmap : Byte) (s : State) : Outcome :=
  live s <| finish { s with ctrl2 := { s.ctrl2 with buttons := bitmap } } .nothing

end Sys2Proof.Machine
end

