-- ==== Sys2Proof/Machine/Flags.lean ====
section
/-! DEFINITION. The status flags and the tests on them: the status byte (R58), the read-clear (R76), the set and clear
of R90, R103 and R112, and "rendering enabled" (R88). -/

namespace Sys2Proof.Machine

/-- The status byte `{vblank, sprZeroHit, 000000}` (R58). -/
def statusByte (p : Ppu) : Byte := BitVec.ofBool p.vblank ++ (BitVec.ofBool p.sprZeroHit ++ 0#6)

/-- What a status read does to the flags (R76): `sprZeroHit` stays (C1). -/
def statusReadEffect (p : Ppu) : Ppu := { p with vblank := false, firstWrite := true }

/-- PreRender dot 1 (R90). -/
def clearStatusFlags (p : Ppu) : Ppu := { p with vblank := false, sprZeroHit := false }

/-- `vblank <- true` (R103). -/
def setVblank (p : Ppu) : Ppu := { p with vblank := true }

/-- "Rendering enabled" (R88). -/
def renderingEnabled (par : Params) (p : Ppu) : Bool :=
  match par.renderEnable with
  | .both => p.showBackground && p.showSprites
  | .either => p.showBackground || p.showSprites

/-- `spr0check` (R112): whether the sprite pixel that decided column `x` sets the hit. -/
def sprZeroHitBy (p : Ppu) (i : Fin 64) (bgOpaque : Bool) : Bool :=
  decide (i.val = 0) && bgOpaque && p.showBackground

end Sys2Proof.Machine
end

