-- ==== Sys2Proof/Machine/Operands.lean ====
section
/-! DEFINITION. The bit layouts of the bytes that cross a port and of the internal formats (R56 to R66), and the
operations on the address registers (R73, R98 to R101). -/

namespace Sys2Proof.Machine

/-- The control byte (R56, R74). Bit 6 is ignored. -/
def applyControl (p : Ppu) (b : Byte) : Ppu :=
  { p with
    generateInterrupt := b.getLsbD 7
    longSprites := b.getLsbD 5
    bgPage := b.extractLsb' 4 1
    sprPage := b.extractLsb' 3 1
    increment := if b.getLsbD 2 then .by32 else .by1
    t := (p.t &&& ~~~0x0C00#15) ||| ((b.extractLsb' 0 2).setWidth 15 <<< 10) }

/-- The mask byte (R57, R75). Bits 7..5 are ignored. -/
def applyMask (p : Ppu) (b : Byte) : Ppu :=
  { p with
    greyscale := b.getLsbD 0
    hideEdgeBackground := !b.getLsbD 1
    hideEdgeSprites := !b.getLsbD 2
    showBackground := b.getLsbD 3
    showSprites := b.getLsbD 4 }

/-- The first scroll byte (R59, R81): coarse X and fine X. -/
def applyScrollFirst (p : Ppu) (b : Byte) : Ppu :=
  { p with
    t := (p.t &&& ~~~0x001F#15) ||| (b.extractLsb' 3 5).setWidth 15
    fineX := b.extractLsb' 0 3
    firstWrite := false }

/-- The second scroll byte (R59, R81): fine Y and coarse Y. -/
def applyScrollSecond (p : Ppu) (b : Byte) : Ppu :=
  { p with
    t := (p.t &&& ~~~0x73E0#15) ||| ((b.extractLsb' 0 3).setWidth 15 <<< 12) ||| ((b.extractLsb' 3 5).setWidth 15 <<< 5)
    firstWrite := true }

/-- The first address byte (R60, R82): `t[13:8]` from its low six bits, `t[14]` cleared. -/
def applyAddrFirst (p : Ppu) (b : Byte) : Ppu :=
  { p with
    t := (p.t &&& 0x00FF#15) ||| ((b.extractLsb' 0 6).setWidth 15 <<< 8)
    firstWrite := false }

/-- The second address byte (R60, R82): `t[7:0]`, and `t` commits to `v`. -/
def applyAddrSecond (p : Ppu) (b : Byte) : Ppu :=
  let t := (p.t &&& 0x7F00#15) ||| b.setWidth 15
  { p with t := t, v := t, firstWrite := true }

/-- The increment as a number (R23). -/
def stepOf (i : VramStep) : BitVec 15 :=
  match i with
  | .by1 => 1#15
  | .by32 => 32#15

/-- `incV()` (R73): a plain sum that wraps within 15 bits. -/
def incV (p : Ppu) : Ppu := { p with v := p.v + stepOf p.increment }

/-- The bus address of `v`: its low 14 bits (R40). -/
def vBusAddr (v : BitVec 15) : Addr := (v.extractLsb' 0 14).setWidth 16

/-- Fine Y, `v[14:12]` (R61). -/
def fineY (v : BitVec 15) : BitVec 3 := v.extractLsb' 12 3

/-- Coarse Y, `v[9:5]` (R61). -/
def coarseY (v : BitVec 15) : BitVec 5 := v.extractLsb' 5 5

/-- Coarse X, `v[4:0]` (R61). -/
def coarseX (v : BitVec 15) : BitVec 5 := v.extractLsb' 0 5

/-- `incCoarseX()` (R98). -/
def incCoarseX (v : BitVec 15) : BitVec 15 :=
  if coarseX v = 31#5 then (v &&& ~~~0x001F#15) ^^^ 0x0400#15 else v + 1#15

/-- `v` with coarse Y `y` (R61, R99). -/
def withCoarseY (v : BitVec 15) (y : BitVec 5) : BitVec 15 :=
  (v &&& ~~~0x03E0#15) ||| (y.setWidth 15 <<< 5)

/-- `incY()` (R99): coarse Y 29 wraps with a flip of `v[11]`, 31 wraps without one. -/
def incY (v : BitVec 15) : BitVec 15 :=
  if fineY v ≠ 7#3 then v + 0x1000#15
  else
    let u := v &&& ~~~0x7000#15
    let y := coarseY u
    if y = 29#5 then withCoarseY (u ^^^ 0x0800#15) 0#5
    else if y = 31#5 then withCoarseY u 0#5
    else withCoarseY u (y + 1#5)

/-- The horizontal copy (R100). -/
def copyH (v t : BitVec 15) : BitVec 15 := (v &&& ~~~0x041F#15) ||| (t &&& 0x041F#15)

/-- The vertical copy (R101). -/
def copyV (v t : BitVec 15) : BitVec 15 := (v &&& ~~~0x7BE0#15) ||| (t &&& 0x7BE0#15)

/-- An OAM entry (R62), in the order "y, tile index, attribute, x". -/
structure SpriteEntry where
  y    : Byte
  tile : Byte
  attr : Byte
  x    : Byte
  deriving DecidableEq, Repr

/-- The entry of sprite `i`, at bytes `4i..4i+3` of OAM (R27, R62). -/
def spriteEntry (oam : ByteMemory) (i : Fin 64) : SpriteEntry where
  y := Memory.read oam (4 * i.val)
  tile := Memory.read oam (4 * i.val + 1)
  attr := Memory.read oam (4 * i.val + 2)
  x := Memory.read oam (4 * i.val + 3)

/-- The sprite height (R23, R111). -/
def spriteHeight (longSprites : Bool) : Nat := if longSprites then 16 else 8

/-- The nametable address of the tile at `v` (R110). -/
def nametableAddr (v : BitVec 15) : Addr := 0x2000#16 ||| (v.setWidth 16 &&& 0x0FFF#16)

/-- The attribute address of the tile at `v` (R110). -/
def attributeAddr (v : BitVec 15) : Addr :=
  0x23C0#16 ||| (v.setWidth 16 &&& 0x0C00#16) ||| ((v.setWidth 16 >>> 4) &&& 0x38#16) ||| ((v.setWidth 16 >>> 2) &&& 0x07#16)

/-- The shift that brings the quadrant's two attribute bits down (R110). -/
def attributeShift (v : BitVec 15) : Nat := (((v >>> 4) &&& 4#15) ||| (v &&& 2#15)).toNat

/-- The plane-0 address of row `row` of tile `tile` of page `page` (R63). -/
def patternAddr (page : BitVec 1) (tile : Byte) (row : Nat) : Addr :=
  BitVec.ofNat 16 (0x1000 * page.toNat + 16 * tile.toNat + row)

/-- The plane-0 address of row `row` of an 8×16 sprite (R111). -/
def longPatternAddr (tile : Byte) (row : Nat) : Addr :=
  BitVec.ofNat 16 (0x1000 * (tile.extractLsb' 0 1).toNat + 32 * (tile >>> 1).toNat + row % 8 + 16 * (row / 8 % 2))

/-- The 2-bit pattern value at bit `bit` of the two plane bytes (R63). -/
def patternBits (plane1 plane0 : Byte) (bit : Nat) : BitVec 2 :=
  BitVec.ofBool (plane1.getLsbD bit) ++ BitVec.ofBool (plane0.getLsbD bit)

/-- The palette index `{s, pp, cc}` (R65). -/
def paletteIndex (s : BitVec 1) (pp cc : BitVec 2) : BitVec 5 := s ++ (pp ++ cc)

/-- `FB[x][y]` (R31); a row outside 0..239 does not exist. -/
def fbRead (fb : FrameBuffer) (x y : Nat) : Color := if h : y < 240 then Memory.read fb[y] x else 0#32

/-- `FB[x][y] <- c` (R31). -/
def fbWrite (fb : FrameBuffer) (x y : Nat) (c : Color) : FrameBuffer :=
  if h : y < 240 then fb.set y (Memory.write fb[y] x c) else fb

end Sys2Proof.Machine
end

