-- ==== Sys2Proof/Machine/Mapper.lean ====
section
/-! DEFINITION. The mapper (spec/43_mapper.md): the five operations of R115 for the fixed-mapping variant (R124 to R130)
and for the abstract variant (R117), with the checks of R123 and R117 (I1). -/

namespace Sys2Proof.Machine

/-- One byte of a cartridge buffer; an offset past its end faults (R117 I1, R142). -/
def romRead (r : Rom) (offset : Nat) : Except Fault Byte :=
  if offset < r.size then .ok (Memory.read r.cells offset) else .error .mapperOutOfBounds

/-- The number of bytes of a CHR RAM (R34, R38). -/
def chrRamSize : Nat := 8192

/-- `prgOffset(a)` of the fixed variant (R125). -/
def fixedPrgOffset (oneBank : Bool) (a : Addr) : Nat :=
  if oneBank then ((a - 0x8000#16) &&& 0x3FFF#16).toNat else (a - 0x8000#16).toNat

/-- The offset of `CART.prg` that `a` resolves to (R125, R117 I3). -/
def prgOffset (s : State) (a : Addr) : Nat :=
  match s.mapper with
  | .fixed oneBank _ => fixedPrgOffset oneBank a
  | .variant n st => (Config.mapperVariant n).prgOffset s.cart st a

/-- `readPRG(a)` (R115, R123, R126). -/
def readPRG (s : State) (a : Addr) : Except Fault Byte :=
  if a < 0x8000#16 then .error .mapperOutOfDomain else romRead s.cart.prg (prgOffset s a)

/-- The number of bytes of a PRG bank (R8). -/
def prgBankSize : Nat := 16384

/-- The end of the bank that an offset of `CART.prg` lies in (R8, R125), for the fixed variant. -/
def fixedBankEnd (offset : Nat) : Nat := (offset / prgBankSize + 1) * prgBankSize

/-- The end in `CART.prg` that a page view at `a` must not pass: of the buffer (R130, R117 I1), and of the bank that `a`
resolves into (R122, the spec's decision D33). For the fixed variant D33 speaks of the end of the bank and R130's pseudocode of
the end of `CART.prg` alone: `pageViewEnd` says which of the two readings holds. DESIGN CHOICE, log 17. -/
def pageEnd (s : State) (a : Addr) : Nat :=
  match s.mapper with
  | .fixed _ _ =>
    match s.par.pageViewEnd with
    | .bank => min s.cart.prg.size (fixedBankEnd (prgOffset s a))
    | .buffer => s.cart.prg.size
  | .variant n st => min s.cart.prg.size ((Config.mapperVariant n).bankEnd s.cart st a)

/-- `getPagePtr(a)` (R122, R123, R130): the read-only view of the 256 bytes from the resolved offset, which faults where
they pass the end of the buffer or of the bank. -/
def getPagePtr (s : State) (a : Addr) : Except Fault (Byte → Byte) :=
  if a < 0x8000#16 then .error .mapperOutOfDomain
  else if prgOffset s a + 256 > pageEnd s a then .error .mapperOutOfBounds
  else .ok fun k => Memory.read s.cart.prg.cells (prgOffset s a + k.toNat)

/-- What a variant's write leaves (R117 c): its new bank state, and the byte in its CHR RAM where it stores it. -/
def variantWrite (s : State) (n : Nat) (st : VariantState) (w : Option VariantWrite) (b : Byte) : Except Fault State :=
  match w with
  | none => .error .mapperOutOfBounds
  | some w =>
    match w.chrStore with
    | none => .ok { s with mapper := .variant n { st with banks := w.banks } }
    | some offset =>
      if offset < chrRamSize then
        .ok { s with mapper := .variant n { banks := w.banks, chrRam := Memory.write st.chrRam offset b } }
      else .error .mapperOutOfBounds

/-- `writePRG(a, b)` (R115, R123, R127). -/
def writePRG (s : State) (a : Addr) (b : Byte) : Except Fault State :=
  if a < 0x8000#16 then .error .mapperOutOfDomain
  else
    match s.mapper with
    | .fixed _ _ => .ok (diag s (.prgWriteIgnored a b))
    | .variant n st => variantWrite s n st ((Config.mapperVariant n).writePRG s.cart st a b) b

/-- `readCHR(a)` (R115, R123, R128). -/
def readCHR (s : State) (a : Addr) : Except Fault Byte :=
  if 0x1FFF#16 < a then .error .mapperOutOfDomain
  else
    match s.mapper with
    | .fixed _ none => romRead s.cart.chr a.toNat
    | .fixed _ (some ram) => .ok (Memory.read ram a.toNat)
    | .variant n st =>
      match (Config.mapperVariant n).chrTarget s.cart st a with
      | .rom offset => romRead s.cart.chr offset
      | .ram offset => if offset < chrRamSize then .ok (Memory.read st.chrRam offset) else .error .mapperOutOfBounds

/-- `writeCHR(a, b)` (R115, R123, R129). -/
def writeCHR (s : State) (a : Addr) (b : Byte) : Except Fault State :=
  if 0x1FFF#16 < a then .error .mapperOutOfDomain
  else
    match s.mapper with
    | .fixed _ none => .ok (diag s (.chrWriteIgnored a b))
    | .fixed oneBank (some ram) => .ok { s with mapper := .fixed oneBank (some (Memory.write ram a.toNat b)) }
    | .variant n st => variantWrite s n st ((Config.mapperVariant n).writeCHR s.cart st a b) b

/-- The CPU address with offset `a` in the window `$8000-$FFFF` (R55). -/
def prgWindowAddr (a : BitVec 15) : Addr := 1#1 ++ a

/-- CPU read of the PRG window (R118). -/
def execPrgR (a : BitVec 15) (s : State) : Outcome :=
  live s <| match readPRG s (prgWindowAddr a) with
    | .ok d => finish s (.byte d)
    | .error f => .fault f

/-- CPU write of the PRG window (R119). -/
def execPrgW (a : BitVec 15) (b : Byte) (s : State) : Outcome :=
  live s <| finishOr (writePRG s (prgWindowAddr a) b) fun _ => .nothing

end Sys2Proof.Machine
end

