-- ==== Sys2Proof/Machine/PictureBus.lean ====
section
/-! DEFINITION. The PictureBus (spec/44_picture_bus.md): routing (R131 to R134), nametable mirroring (R135) and palette
indexing (R136), and the bus transactions of space 01. -/

namespace Sys2Proof.Machine

/-- `base(n)` (R135): where nametable `n` starts in nametable RAM. -/
def ntBase (m : Mirroring) (n : Nat) : Nat :=
  match m with
  | .vertical => if n % 2 = 0 then 0x000 else 0x400
  | .horizontal => if n < 2 then 0x000 else 0x400
  | .singleLow => 0x000
  | .singleHigh => 0x400

/-- `ntOffset(a)` (R135). -/
def ntOffset (m : Mirroring) (a : Addr) : Nat :=
  ntBase m (a.extractLsb' 10 2).toNat + (a.extractLsb' 0 10).toNat

/-- `palIndex(i)` (R136). -/
def palIndex (mode : PaletteAlias) (i : BitVec 5) : BitVec 5 :=
  if mode = .hw ∧ i &&& 0x13#5 = 0x10#5 then i &&& 0x0F#5 else i

/-- The palette entry that the bus address or index `a` names: `palIndex(a & 0x1F)` (R132, R133). -/
def paletteEntry (s : State) (a : Addr) : Nat := (palIndex s.par.paletteAlias (a.extractLsb' 0 5)).toNat

/-- `PB.read(a)` (R132). A read changes no state. -/
def pbRead (s : State) (a : Addr) : Except Fault Byte :=
  if 0x4000#16 ≤ a then .error .busOutOfDomain
  else if a < 0x2000#16 then readCHR s a
  else if a < 0x3F00#16 then .ok (Memory.read s.pb.ntRam (ntOffset s.cart.mirroring a))
  else .ok (Memory.read s.pb.palette (paletteEntry s a))

/-- `PB.write(a, b)` (R133). -/
def pbWrite (s : State) (a : Addr) (b : Byte) : Except Fault State :=
  if 0x4000#16 ≤ a then .error .busOutOfDomain
  else if a < 0x2000#16 then writeCHR s a b
  else if a < 0x3F00#16 then
    .ok { s with pb := { s.pb with ntRam := Memory.write s.pb.ntRam (ntOffset s.cart.mirroring a) b } }
  else .ok { s with pb := { s.pb with palette := Memory.write s.pb.palette (paletteEntry s a) b } }

/-- `PB.readPalette(i)` (R134). -/
def pbReadPalette (s : State) (i : Addr) : Except Fault Byte :=
  if 31#16 < i then .error .busOutOfDomain else .ok (Memory.read s.pb.palette (paletteEntry s i))

/-- A PictureBus read transaction (R132): the byte is given back, no state changes. -/
def busRead (s : State) (a : Addr) : Outcome :=
  live s <| match pbRead s a with
    | .ok d => finish s (.byte d)
    | .error f => .fault f

/-- A PictureBus write transaction (R133). -/
def busWrite (s : State) (a : Addr) (b : Byte) : Outcome :=
  live s <| finishOr (pbWrite s a b) fun _ => .nothing

/-- PB_PAT_R: pattern tables, `0x0000-0x1FFF` (R132, R120). -/
def execPbPatR (a : BitVec 13) (s : State) : Outcome := busRead s (0#3 ++ a)

/-- PB_NT_R: nametables, `0x2000-0x2FFF` (R132). -/
def execPbNtR (a : BitVec 12) (s : State) : Outcome := busRead s (0x2#4 ++ a)

/-- PB_NT_R.3000: nametable mirror, `0x3000-0x37FF` (R132). -/
def execPbNtR3000 (a : BitVec 11) (s : State) : Outcome := busRead s (0x6#5 ++ a)

/-- PB_NT_R.3800: nametable mirror, `0x3800-0x3BFF` (R132). -/
def execPbNtR3800 (a : BitVec 10) (s : State) : Outcome := busRead s (0xE#6 ++ a)

/-- PB_NT_R.3C00: nametable mirror, `0x3C00-0x3DFF` (R132). -/
def execPbNtR3C00 (a : BitVec 9) (s : State) : Outcome := busRead s (0x1E#7 ++ a)

/-- PB_NT_R.3E00: nametable mirror, `0x3E00-0x3EFF` (R132). -/
def execPbNtR3E00 (a : BitVec 8) (s : State) : Outcome := busRead s (0x3E#8 ++ a)

/-- PB_PAL_R: palette, `0x3F00-0x3FFF` (R132). -/
def execPbPalR (a : BitVec 8) (s : State) : Outcome := busRead s (0x3F#8 ++ a)

/-- PB_OOD_R: `0x4000-0x7FFF`, the fault `BusOutOfDomain` (R132, R68 f). -/
def execPbOodR (a : BitVec 14) (s : State) : Outcome := busRead s (1#2 ++ a)

/-- PB_OOD_R.8000: `0x8000-0xFFFF`, the fault `BusOutOfDomain` (R132, R68 f). -/
def execPbOodR8000 (a : BitVec 15) (s : State) : Outcome := busRead s (1#1 ++ a)

/-- PB_PAT_W: pattern tables, `0x0000-0x1FFF` (R133, R121). -/
def execPbPatW (a : BitVec 13) (b : Byte) (s : State) : Outcome := busWrite s (0#3 ++ a) b

/-- PB_NT_W: nametables, `0x2000-0x2FFF` (R133). -/
def execPbNtW (a : BitVec 12) (b : Byte) (s : State) : Outcome := busWrite s (0x2#4 ++ a) b

/-- PB_NT_W.3000: nametable mirror, `0x3000-0x37FF` (R133). -/
def execPbNtW3000 (a : BitVec 11) (b : Byte) (s : State) : Outcome := busWrite s (0x6#5 ++ a) b

/-- PB_NT_W.3800: nametable mirror, `0x3800-0x3BFF` (R133). -/
def execPbNtW3800 (a : BitVec 10) (b : Byte) (s : State) : Outcome := busWrite s (0xE#6 ++ a) b

/-- PB_NT_W.3C00: nametable mirror, `0x3C00-0x3DFF` (R133). -/
def execPbNtW3C00 (a : BitVec 9) (b : Byte) (s : State) : Outcome := busWrite s (0x1E#7 ++ a) b

/-- PB_NT_W.3E00: nametable mirror, `0x3E00-0x3EFF` (R133). -/
def execPbNtW3E00 (a : BitVec 8) (b : Byte) (s : State) : Outcome := busWrite s (0x3E#8 ++ a) b

/-- PB_PAL_W: palette, `0x3F00-0x3FFF`; all 8 bits are stored (R133). -/
def execPbPalW (a : BitVec 8) (b : Byte) (s : State) : Outcome := busWrite s (0x3F#8 ++ a) b

/-- PB_OOD_W: `0x4000-0x7FFF`, the fault `BusOutOfDomain` (R133, R68 f). -/
def execPbOodW (a : BitVec 14) (b : Byte) (s : State) : Outcome := busWrite s (1#2 ++ a) b

/-- PB_OOD_W.8000: `0x8000-0xFFFF`, the fault `BusOutOfDomain` (R133, R68 f). -/
def execPbOodW8000 (a : BitVec 15) (b : Byte) (s : State) : Outcome := busWrite s (1#1 ++ a) b

/-- PB_RDPAL: the direct palette read (R134). -/
def execPbRdpal (i : BitVec 5) (s : State) : Outcome :=
  live s <| match pbReadPalette s (0#11 ++ i) with
    | .ok d => finish s (.byte d)
    | .error f => .fault f

/-- The reserved palette read of R68 (c): the fault `BusOutOfDomain`. -/
def paletteOutOfDomain (s : State) : Outcome := live s (.fault .busOutOfDomain)

end Sys2Proof.Machine
end

