-- ==== Sys2Proof/Machine/Render.lean ====
section
/-! DEFINITION. The pixel algorithm and the sprite evaluation (spec/42_ppu_render.md, R109 to R114). Every access is a
PictureBus read or an OAM read; none writes `v`. -/

namespace Sys2Proof.Machine

/-- What the background or the sprites give at a column: a palette index, whether it is opaque, and whether it is in
front of the background (R110, R111). -/
structure Pixel where
  idx      : BitVec 5
  isOpaque : Bool
  front    : Bool
  deriving DecidableEq, Repr

/-- Index 0, not opaque (R110, R111). -/
def Pixel.clear : Pixel where
  idx := 0#5
  isOpaque := false
  front := false

/-- The 2-bit pattern value at bit `bit` of the row whose plane 0 is at `pa` and plane 1 at `pa + 8` (R63). -/
def patternPixel (s : State) (pa : Addr) (bit : Nat) : Except Fault (BitVec 2) := do
  let plane0 ← pbRead s pa
  let plane1 ← pbRead s (pa + 8#16)
  return patternBits plane1 plane0 bit

/-- The position of column `x` within its tile (R110, R94). -/
def tileColumn (p : Ppu) (x : Nat) : Nat := (p.fineX.toNat + x) % 8

/-- `background(x)` (R110). -/
def background (s : State) (x : Nat) : Except Fault Pixel :=
  if !s.ppu.showBackground || (s.ppu.hideEdgeBackground && decide (x < 8)) then .ok Pixel.clear
  else do
    let tile ← pbRead s (nametableAddr s.ppu.v)
    let pattern ← patternPixel s (patternAddr s.ppu.bgPage tile (fineY s.ppu.v).toNat) (7 - tileColumn s.ppu x)
    let attrByte ← pbRead s (attributeAddr s.ppu.v)
    let palette := (attrByte >>> attributeShift s.ppu.v).extractLsb' 0 2
    return { idx := paletteIndex 0#1 palette pattern, isOpaque := decide (pattern ≠ 0#2), front := false }

/-- Whether sprite entry `e` covers column `x` (R111): the span does not wrap. -/
def covers (e : SpriteEntry) (x : Nat) : Bool := decide (e.x.toNat ≤ x) && decide (x < e.x.toNat + 8)

/-- The row of sprite entry `e` on line `y` before the flip: `(y - Ytop) mod H`, the Euclidean remainder (R111). -/
def spriteRow (e : SpriteEntry) (h y : Nat) : Nat :=
  (((y : Int) - ((e.y + 1#8).toNat : Int)) % (h : Int)).toNat

/-- The row after the vertical flip of `attr[7]` (R111). -/
def flippedRow (e : SpriteEntry) (h row : Nat) : Nat := if e.attr.getLsbD 7 then h - 1 - row else row

/-- The plane-0 address of row `row` of sprite entry `e` (R111). -/
def spritePatternAddr (p : Ppu) (e : SpriteEntry) (row : Nat) : Addr :=
  if p.longSprites then longPatternAddr e.tile row else patternAddr p.sprPage e.tile row

/-- The bit of the plane bytes at column `x`, after the horizontal flip of `attr[6]` (R111). -/
def spriteBit (e : SpriteEntry) (x : Nat) : Nat :=
  if e.attr.getLsbD 6 then x - e.x.toNat else 7 - (x - e.x.toNat)

/-- The pattern value of sprite entry `e` at column `x` of line `y` (R111). -/
def spritePattern (s : State) (e : SpriteEntry) (x y : Nat) : Except Fault (BitVec 2) :=
  let h := spriteHeight s.ppu.longSprites
  patternPixel s (spritePatternAddr s.ppu e (flippedRow e h (spriteRow e h y))) (spriteBit e x)

/-- The scan of R111 over the sprites of a list, in order: the sprite that decides the column, if one is opaque there,
with its pixel. -/
def scanSprites (s : State) (x y : Nat) : List (Fin 64) → Except Fault (Option (Fin 64 × Pixel))
  | [] => .ok none
  | i :: rest =>
    let e := spriteEntry s.ppu.oam i
    if !covers e x then scanSprites s x y rest
    else
      match spritePattern s e x y with
      | .error f => .error f
      | .ok pattern =>
        if pattern = 0#2 then
          match s.par.spriteStop with
          | .firstCovering => .ok none
          | .firstOpaque => scanSprites s x y rest
        else
          .ok (some (i, { idx := paletteIndex 1#1 (e.attr.extractLsb' 0 2) pattern
                          isOpaque := true
                          front := !e.attr.getLsbD 5 }))

/-- `sprites(x, y, bgOpaque)` (R111), before the sprite-zero check of R112. -/
def sprites (s : State) (x y : Nat) : Except Fault (Option (Fin 64 × Pixel)) :=
  if !s.ppu.showSprites || (s.ppu.hideEdgeSprites && decide (x < 8)) then .ok none
  else scanSprites s x y s.ppu.lineSprites

/-- `select` (R113): the final palette index. -/
def selectIndex (bg spr : Pixel) : BitVec 5 :=
  if spr.isOpaque && (!bg.isOpaque || spr.front) then spr.idx
  else if bg.isOpaque then bg.idx
  else 0#5

/-- The colour of a palette byte: `P_COLOR_TABLE` at its low six bits (R109, R113). -/
def colorOf (par : Params) (entry : Byte) : Color := par.colorTable[(entry.extractLsb' 0 6).toNat]

/-- The PPU after the pixel of column `x`, row `y`: the frame-buffer entry (R109), and the sprite-zero hit where the
deciding sprite sets it (R112). -/
def putPixel (p : Ppu) (x y : Nat) (c : Color) (hit : Bool) : Ppu :=
  { p with fb := fbWrite p.fb x y c, sprZeroHit := p.sprZeroHit || hit }

/-- `pixel(x, y)` (R109). -/
def pixel (s : State) (x y : Nat) : Except Fault Ppu := do
  let bg ← background s x
  let scan ← sprites s x y
  let spr := match scan with
    | none => Pixel.clear
    | some (_, px) => px
  let hit := match scan with
    | none => false
    | some (i, _) => sprZeroHitBy s.ppu i bg.isOpaque
  let entry ← pbReadPalette s ((selectIndex bg spr).setWidth 16)
  return putPixel s.ppu x y (colorOf s.par entry) hit

/-- Whether the evaluation for scanline `line` selects sprite `i` (R114): `0 <= line - Y < H`. -/
def inRange (p : Ppu) (line : Nat) (i : Fin 64) : Bool :=
  let y := (spriteEntry p.oam i).y.toNat
  decide (y ≤ line) && decide (line < y + spriteHeight p.longSprites)

/-- `evaluateSprites(s)` (R114): from the sprite that holds byte `oamAddr` to sprite 63, the first eight in range. -/
def evaluateSprites (p : Ppu) (line : Nat) : List (Fin 64) :=
  ((List.finRange 64).filter fun i => decide (p.oamAddr.toNat / 4 ≤ i.val) && inRange p line i).take 8

end Sys2Proof.Machine
end

