-- ==== Sys2Proof/Machine/Cycle.lean ====
section
/-! DEFINITION. The per-dot step `cycle()` (spec/41_ppu_cycle.md, R87 to R108). -/

namespace Sys2Proof.Machine

/-- The horizontal copy from `t` to `v`, if rendering is enabled (R91, R96, R100). -/
def horizontalCopy (par : Params) (p : Ppu) : Ppu :=
  if renderingEnabled par p then { p with v := copyH p.v p.t } else p

/-- The vertical copy from `t` to `v`, if rendering is enabled (R92, R101). -/
def verticalCopy (par : Params) (p : Ppu) : Ppu :=
  if renderingEnabled par p then { p with v := copyV p.v p.t } else p

/-- The action of a PreRender dot (R90 to R92). -/
def preRenderAction (par : Params) (p : Ppu) : Ppu :=
  if p.dot = 1#9 then clearStatusFlags p
  else if p.dot = 258#9 then horizontalCopy par p
  else if 281#9 ≤ p.dot ∧ p.dot ≤ 304#9 then verticalCopy par p
  else p

/-- Whether the PreRender line ends at this dot (R93): dot 340, or dot 339 of an odd frame with rendering enabled. -/
def preRenderEnds (par : Params) (p : Ppu) : Bool :=
  decide (p.dot = 340#9) || (!p.evenFrame && renderingEnabled par p && decide (p.dot = 339#9))

/-- `advance(lineEnd)` (R108). -/
def advance (par : Params) (lineEnd : Bool) (p : Ppu) : Ppu :=
  if lineEnd then
    { p with dot := match par.lineWrap with
        | .dot0 => 0#9
        | .dot1 => 1#9 }
  else { p with dot := p.dot + 1#9 }

/-- A PreRender dot (R90 to R93) and the advance. -/
def preRenderDot (par : Params) (p : Ppu) : Ppu :=
  let q := preRenderAction par p
  if preRenderEnds par q then advance par true { q with phase := .render, scanline := 0#9 }
  else advance par false q

/-- The coarse-X step of a drawn column, when the background is shown and the step is due (R94). -/
def coarseStep (p : Ppu) (x : Nat) : Ppu :=
  if p.showBackground && decide (tileColumn p x = 7) then { p with v := incCoarseX p.v } else p

/-- The action of a Render dot (R94 to R96). -/
def renderAction (s : State) : Except Fault Ppu :=
  let p := s.ppu
  if 1#9 ≤ p.dot ∧ p.dot ≤ 256#9 then
    match pixel s (p.dot.toNat - 1) p.scanline.toNat with
    | .error f => .error f
    | .ok q => .ok (coarseStep q (p.dot.toNat - 1))
  else if p.dot = 257#9 then .ok (if p.showBackground then { p with v := incY p.v } else p)
  else if p.dot = 258#9 then .ok (horizontalCopy s.par p)
  else .ok p

/-- The end of a Render line (R97): the evaluation for the next line, and the phase change after line 239. -/
def renderLineEnd (p : Ppu) : Ppu :=
  { p with
    lineSprites := evaluateSprites p p.scanline.toNat
    scanline := p.scanline + 1#9
    phase := if p.scanline + 1#9 = 240#9 then .postRender else p.phase }

/-- A Render dot (R94 to R97) and the advance. -/
def renderDot (s : State) : Except Fault Ppu :=
  match renderAction s with
  | .error f => .error f
  | .ok p =>
    .ok (if p.dot = 340#9 then advance s.par true (renderLineEnd p) else advance s.par false p)

/-- A PostRender dot (R102) and the advance. -/
def postRenderDot (par : Params) (p : Ppu) : Ppu :=
  if p.dot = 340#9 then advance par true { p with scanline := p.scanline + 1#9, phase := .verticalBlank }
  else advance par false p

/-- Whether this dot starts vertical blank (R103). -/
def vblankStarts (p : Ppu) : Bool := decide (p.scanline = 241#9) && decide (p.dot = 1#9)

/-- The end of a VerticalBlank line (R104): after line 260, PreRender, scanline 0, and the flip of `evenFrame`. -/
def vblankLineEnd (p : Ppu) : Ppu :=
  if p.scanline + 1#9 = 261#9 then
    { p with phase := .preRender, scanline := 0#9, evenFrame := !p.evenFrame }
  else { p with scanline := p.scanline + 1#9 }

/-- A VerticalBlank dot (R103, R104) and the advance. -/
def vblankDot (par : Params) (p : Ppu) : Ppu :=
  let q := if vblankStarts p then setVblank p else p
  if q.dot = 340#9 then advance par true (vblankLineEnd q) else advance par false q

/-- Whether this dot emits the interrupt signal (R103, R146). -/
def emitsInterrupt (p : Ppu) : Bool :=
  decide (p.phase = .verticalBlank) && vblankStarts p && p.generateInterrupt

/-- The PPU after the dot at its position (R87). -/
def dotStep (s : State) : Except Fault Ppu :=
  match s.ppu.phase with
  | .preRender => .ok (preRenderDot s.par s.ppu)
  | .render => renderDot s
  | .postRender => .ok (postRenderDot s.par s.ppu)
  | .verticalBlank => .ok (vblankDot s.par s.ppu)

/-- `cycle()` (R87). -/
def execCycle (s : State) : Outcome :=
  live s <| match dotStep s with
    | .error f => .fault f
    | .ok p =>
      if emitsInterrupt s.ppu then finish (emitNmi { s with ppu := p }) .interrupt
      else finish { s with ppu := p } .nothing

end Sys2Proof.Machine
end

