-- ==== Sys2Proof/Machine/Construct.lean ====
section
/-! DEFINITION. Reset and construction (spec/70_reset_and_hazards.md R158, R159; spec/43_mapper.md R116, R124). -/

namespace Sys2Proof.Machine

/-- What `reset()` does to the PPU (R159): every scalar at its reset value, the mask as `setMask(P_RESET_MASK)` leaves
it; OAM, the read buffer and the frame buffer stay. -/
def resetPpu (par : Params) (p : Ppu) : Ppu :=
  applyMask
    { Ppu.powerOn with oam := p.oam, readBuffer := p.readBuffer, fb := p.fb }
    par.resetMask

/-- `P_INIT` (R7, R158): the initial contents of the memories. -/
structure Init where
  oam        : ByteMemory
  readBuffer : Byte
  fb         : FrameBuffer
  ntRam      : ByteMemory
  palette    : ByteMemory
  chrRam     : ByteMemory
  deriving DecidableEq, Repr

/-- The contents of log 3: every byte and every colour 0. -/
def Init.zero : Init where
  oam := []
  readBuffer := 0#8
  fb := Vector.replicate 240 []
  ntRam := []
  palette := []
  chrRam := []

/-- Construction of the fixed-mapping variant (R124). -/
def constructFixed (cart : Cart) (par : Params) (init : Init) : Except RefuseReason Mapper :=
  if cart.prg.size ≠ 16384 ∧ cart.prg.size ≠ 32768 then .error .unsupportedPrgSize
  else if cart.chrIsRam then
    match par.chrRamFixed with
    | .refuse => .error .unsupportedChrRam
    | .ram8k => .ok (.fixed (decide (cart.prg.size = 16384)) (some init.chrRam))
  else if cart.chr.size ≠ 8192 then .error .unsupportedChrSize
  else .ok (.fixed (decide (cart.prg.size = 16384)) none)

/-- `P_MAPPER_VARIANTS` as a finite map (R7; log 8): defined on the numbers of the parameters, by default on none. -/
def variantOf (par : Params) (number : Nat) : Option MapperVariant :=
  if number ∈ par.mapperNumbers then some (Config.mapperVariant number) else none

/-- The state of a variant that its `init` supplies (R34, R117 b), its CHR RAM laid out as a memory. -/
def firstVariantState (v : VariantInit) : VariantState where
  banks := v.banks
  chrRam := Memory.ofFn chrRamSize v.chrRam

/-- `constructMapper(CART)` (R116). -/
def constructMapper (cart : Cart) (par : Params) (init : Init) : Except RefuseReason Mapper :=
  if cart.mapperNumber = 0 then constructFixed cart par init
  else
    match variantOf par cart.mapperNumber with
    | none => .error .unsupportedMapper
    | some m =>
      match m.init cart (Memory.read init.chrRam) with
      | .error r => .error r
      | .ok v => .ok (.variant cart.mapperNumber (firstVariantState v))

/-- `construct(CART)` (R158): the state of a new session, or the refusal of the cartridge. The PPU scalars are those of
the `reset()` that ends it. -/
def construct (cart : Cart) (par : Params) (init : Init) : Except RefuseReason State :=
  match constructMapper cart par init with
  | .error r => .error r
  | .ok m =>
    .ok
      { ppu := resetPpu par { Ppu.powerOn with oam := init.oam, readBuffer := init.readBuffer, fb := init.fb }
        pb := { ntRam := init.ntRam, palette := init.palette }
        mapper := m
        ctrl1 := Controller.powerOn
        ctrl2 := Controller.powerOn
        out := OutRecords.powerOn
        cart := cart
        par := par
        schedule := []
        result := .nothing
        draws := 0 }

end Sys2Proof.Machine
end

