-- ==== Sys2Proof/Machine/HostCalls.lean ====
section
/-! DEFINITION. The host calls RESET (R159) and FBREAD (R156); CYCLE is in Cycle.lean, the button writes in
Controllers.lean. -/

namespace Sys2Proof.Machine

/-- `reset()` (R159): it changes PPU state only, and emits nothing. -/
def execReset (s : State) : Outcome := live s <| finish { s with ppu := resetPpu s.par s.ppu } .nothing

/-- `FBREAD(x, y)` (R156). -/
def execFbread (x y : Nat) (s : State) : Outcome :=
  live s <|
    if 255 < x ∨ 239 < y then refuse s .noSuchPixel
    else finish s (.color (fbRead s.ppu.fb x y))

end Sys2Proof.Machine
end

