-- ==== Sys2Proof/Machine/Ports.lean ====
section
/-! DEFINITION. The PPU port operations (spec/40_ppu_ports.md, R72 to R86). A port operation never moves the position
and never emits the interrupt signal (R72). The `mirror` bits of a port address have no effect (R55). -/

namespace Sys2Proof.Machine

/-- An operation that only writes PPU state and gives nothing back. -/
def ppuWrite (s : State) (p : Ppu) : Outcome := live s <| finish { s with ppu := p } .nothing

/-- `control(b)` (R74). -/
def execPpuctrlW (_mirror : BitVec 10) (b : Byte) (s : State) : Outcome := ppuWrite s (applyControl s.ppu b)

/-- `setMask(b)` (R75). -/
def execPpumaskW (_mirror : BitVec 10) (b : Byte) (s : State) : Outcome := ppuWrite s (applyMask s.ppu b)

/-- `getStatus()` (R76). -/
def execPpustatusR (_mirror : BitVec 10) (s : State) : Outcome :=
  live s <| finish { s with ppu := statusReadEffect s.ppu } (.byte (statusByte s.ppu))

/-- Write to the status port (R77): ignored. -/
def execPpustatusW (_mirror : BitVec 10) (_b : Byte) (s : State) : Outcome := ppuWrite s s.ppu

/-- `setOAMAddress(b)` (R78). -/
def execOamaddrW (_mirror : BitVec 10) (b : Byte) (s : State) : Outcome := ppuWrite s { s.ppu with oamAddr := b }

/-- `getOAMData()` (R79). -/
def execOamdataR (_mirror : BitVec 10) (s : State) : Outcome :=
  live s <| finish s (.byte (Memory.read s.ppu.oam s.ppu.oamAddr.toNat))

/-- `setOAMData(b)` (R80). -/
def execOamdataW (_mirror : BitVec 10) (b : Byte) (s : State) : Outcome :=
  ppuWrite s { s.ppu with
    oam := Memory.write s.ppu.oam s.ppu.oamAddr.toNat b
    oamAddr := s.ppu.oamAddr + 1#8 }

/-- `setScroll(b)` (R81): the shared toggle decides which half `b` is (R69). -/
def execPpuscrollW (_mirror : BitVec 10) (b : Byte) (s : State) : Outcome :=
  ppuWrite s (if s.ppu.firstWrite then applyScrollFirst s.ppu b else applyScrollSecond s.ppu b)

/-- `setDataAddress(b)` (R82): the shared toggle decides which half `b` is (R69). -/
def execPpuaddrW (_mirror : BitVec 10) (b : Byte) (s : State) : Outcome :=
  ppuWrite s (if s.ppu.firstWrite then applyAddrFirst s.ppu b else applyAddrSecond s.ppu b)

/-- Whether a data read is delayed (R83): the address tested is the one read, or `v` after the increment, by
`P_READ_DELAY_ADDR`. -/
def readIsDelayed (par : Params) (read : Addr) (vAfter : BitVec 15) : Bool :=
  match par.readDelayAddr with
  | .pre => decide (read < 0x3F00#16)
  | .post => decide (vAfter < 0x3F00#15)

/-- The PPU and the byte given back when a data read fetches `d` at `a` (R83). -/
def dataReadEffect (par : Params) (p : Ppu) (a : Addr) (d : Byte) : Ppu × Byte :=
  let q := incV p
  if readIsDelayed par a q.v then ({ q with readBuffer := d }, p.readBuffer) else (q, d)

/-- `getData(bus)` (R83). -/
def execPpudataR (_mirror : BitVec 10) (s : State) : Outcome :=
  live s <| match pbRead s (vBusAddr s.ppu.v) with
    | .error f => .fault f
    | .ok d =>
      let r := dataReadEffect s.par s.ppu (vBusAddr s.ppu.v) d
      finish { s with ppu := r.1 } (.byte r.2)

/-- `setData(bus, b)` (R84). -/
def execPpudataW (_mirror : BitVec 10) (b : Byte) (s : State) : Outcome :=
  live s <| match pbWrite s (vBusAddr s.ppu.v) b with
    | .error f => .fault f
    | .ok s' => finish { s' with ppu := incV s'.ppu } .nothing

/-- OAM after a copy of `src` that starts at the cursor `c` (R85): `OAM[i] = src[(i - c) mod 256]`. -/
def dmaOam (c : Byte) (src : Byte → Byte) : ByteMemory :=
  Memory.ofFn 256 fun i => src (BitVec.ofNat 8 i - c)

/-- `doDMA(page)` (R85): pages `0x80..0xFF` come through the mapper's `getPagePtr`, the others are `P_CPU_PAGE`, one
draw of the free value (log 7). `oamAddr` is not changed. -/
def execOamdmaW (n : Byte) (s : State) : Outcome :=
  live s <|
    if 0x80#8 ≤ n then
      match getPagePtr s (n ++ 0#8) with
      | .error f => .fault f
      | .ok src => finish { s with ppu := { s.ppu with oam := dmaOam s.ppu.oamAddr src } } .nothing
    else
      finish { drawn s with ppu := { s.ppu with oam := dmaOam s.ppu.oamAddr (Config.cpuPage s.draws n) } } .nothing

/-- Read of a write-only port (R86): one draw of `P_OPEN_READ` (log 6), and no other change. -/
def openRead (s : State) : Outcome := live s <| finish (drawn s) (.byte (Config.openRead s.draws))

/-- Read of the control port (R86). -/
def execPpuctrlR (_mirror : BitVec 10) (s : State) : Outcome := openRead s

/-- Read of the mask port (R86). -/
def execPpumaskR (_mirror : BitVec 10) (s : State) : Outcome := openRead s

/-- Read of the OAM address port (R86). -/
def execOamaddrR (_mirror : BitVec 10) (s : State) : Outcome := openRead s

/-- Read of the scroll port (R86). -/
def execPpuscrollR (_mirror : BitVec 10) (s : State) : Outcome := openRead s

/-- Read of the VRAM address port (R86). -/
def execPpuaddrR (_mirror : BitVec 10) (s : State) : Outcome := openRead s

/-- Read of the OAM DMA port (R86). -/
def execOamdmaR (s : State) : Outcome := openRead s

end Sys2Proof.Machine
end

