-- ==== Sys2Proof/Machine/Dispatch.lean ====
section
/-! DEFINITION. The dispatch: one arm for each constructor of `Instr`, each a direct call of the operation's meaning. -/

namespace Sys2Proof.Machine

/-- The meaning of each operation. -/
def exec (i : Instr) (s : State) : Host.Outcome State Fault Refusal :=
  match i with
  | .ppuctrlW m b => Sys2Proof.Machine.execPpuctrlW m b s
  | .ppuctrlR m => Sys2Proof.Machine.execPpuctrlR m s
  | .ppumaskW m b => Sys2Proof.Machine.execPpumaskW m b s
  | .ppumaskR m => Sys2Proof.Machine.execPpumaskR m s
  | .ppustatusR m => Sys2Proof.Machine.execPpustatusR m s
  | .ppustatusW m b => Sys2Proof.Machine.execPpustatusW m b s
  | .oamaddrW m b => Sys2Proof.Machine.execOamaddrW m b s
  | .oamaddrR m => Sys2Proof.Machine.execOamaddrR m s
  | .oamdataR m => Sys2Proof.Machine.execOamdataR m s
  | .oamdataW m b => Sys2Proof.Machine.execOamdataW m b s
  | .ppuscrollW m b => Sys2Proof.Machine.execPpuscrollW m b s
  | .ppuscrollR m => Sys2Proof.Machine.execPpuscrollR m s
  | .ppuaddrW m b => Sys2Proof.Machine.execPpuaddrW m b s
  | .ppuaddrR m => Sys2Proof.Machine.execPpuaddrR m s
  | .ppudataR m => Sys2Proof.Machine.execPpudataR m s
  | .ppudataW m b => Sys2Proof.Machine.execPpudataW m b s
  | .oamdmaW n => Sys2Proof.Machine.execOamdmaW n s
  | .oamdmaR => Sys2Proof.Machine.execOamdmaR s
  | .ctrlStrobeW b => Sys2Proof.Machine.execCtrlStrobeW b s
  | .ctrl1R => Sys2Proof.Machine.execCtrl1R s
  | .ctrl2R => Sys2Proof.Machine.execCtrl2R s
  | .prgR a => Sys2Proof.Machine.execPrgR a s
  | .prgW a b => Sys2Proof.Machine.execPrgW a b s
  | .pbPatR a => Sys2Proof.Machine.execPbPatR a s
  | .pbNtR a => Sys2Proof.Machine.execPbNtR a s
  | .pbNtR3000 a => Sys2Proof.Machine.execPbNtR3000 a s
  | .pbNtR3800 a => Sys2Proof.Machine.execPbNtR3800 a s
  | .pbNtR3C00 a => Sys2Proof.Machine.execPbNtR3C00 a s
  | .pbNtR3E00 a => Sys2Proof.Machine.execPbNtR3E00 a s
  | .pbPalR a => Sys2Proof.Machine.execPbPalR a s
  | .pbOodR a => Sys2Proof.Machine.execPbOodR a s
  | .pbOodR8000 a => Sys2Proof.Machine.execPbOodR8000 a s
  | .pbPatW a b => Sys2Proof.Machine.execPbPatW a b s
  | .pbNtW a b => Sys2Proof.Machine.execPbNtW a b s
  | .pbNtW3000 a b => Sys2Proof.Machine.execPbNtW3000 a b s
  | .pbNtW3800 a b => Sys2Proof.Machine.execPbNtW3800 a b s
  | .pbNtW3C00 a b => Sys2Proof.Machine.execPbNtW3C00 a b s
  | .pbNtW3E00 a b => Sys2Proof.Machine.execPbNtW3E00 a b s
  | .pbPalW a b => Sys2Proof.Machine.execPbPalW a b s
  | .pbOodW a b => Sys2Proof.Machine.execPbOodW a b s
  | .pbOodW8000 a b => Sys2Proof.Machine.execPbOodW8000 a b s
  | .pbRdpal idx => Sys2Proof.Machine.execPbRdpal idx s
  | .cycle => Sys2Proof.Machine.execCycle s
  | .reset => Sys2Proof.Machine.execReset s
  | .buttons1 bitmap => Sys2Proof.Machine.execButtons1 bitmap s
  | .buttons2 bitmap => Sys2Proof.Machine.execButtons2 bitmap s
  | .fbread x y => Sys2Proof.Machine.execFbread x y s

end Sys2Proof.Machine
end

