-- ==== Sys2Proof/Machine/Reserved.lean ====
section
/-! DEFINITION. What a call does whose word is reserved (R68). -/

namespace Sys2Proof.Machine

/-- The outcome of a call that decodes to no operation: the refusal, or the fault of R68 (c). -/
def refusedCall (r : RefuseReason) (s : State) : Outcome := live s (refuse s r)

end Sys2Proof.Machine
end

