-- ==== Sys2Proof/Machine/Step.lean ====
section
/-! DEFINITION. One step of the machine: the next call of the driver, decoded and run (R5, R67; log 1). -/

namespace Sys2Proof.Machine

/-- One step. A driver that makes no call leaves the block as it is (R155, R173; log 1). -/
def step (s : State) : Host.Outcome State Fault Refusal :=
  match fetch s with
  | none => live s (.next s)
  | some (c, s') =>
    match decode c with
    | .instr i => exec i s'
    | .refused r => refusedCall r s'
    | .paletteOutOfDomain => paletteOutOfDomain s'

/-- `s` with the instruction whose low `nbits` bits are those of `w`, every bit above them 0, as the next call the
driver makes (log 1, log 11). -/
def State.withFetchWord (s : State) (nbits w : Nat) : State := withCall s (callOfBits (w % 2 ^ nbits))

end Sys2Proof.Machine
end

