-- ==== Sys2Proof/Safety.lean ====
section
/-! DEFINITION. The terms claims use: a live session, the session a fixed-mapping cartridge gives, the legal positions,
and the invariant of the machine. -/

namespace Sys2Proof.Machine

/-- No fault has occurred, so operations have next states (R36). -/
def State.Alive (s : State) : Prop := s.out.faulted = none

/-- A successful end state (R173): no fault and no refusal recorded. -/
def State.Successful (s : State) : Prop := s.out.faulted = none ∧ s.out.refused = none

/-- The session is one that construction gives for the fixed-mapping variant (R116, R124). -/
def State.FixedSession (s : State) : Prop :=
  match s.mapper with
  | .fixed oneBank chrRam =>
    s.cart.mapperNumber = 0
      ∧ (oneBank = true ∧ s.cart.prg.size = 16384 ∨ oneBank = false ∧ s.cart.prg.size = 32768)
      ∧ (match chrRam with
        | none => s.cart.chrIsRam = false ∧ s.cart.chr.size = 8192
        | some _ => s.cart.chrIsRam = true ∧ s.par.chrRamFixed = .ram8k)
  | .variant _ _ => False

/-- The session is one that construction gives (R116): a fixed-mapping one, or that of a variant of the session. -/
def State.SessionOk (s : State) : Prop :=
  match s.mapper with
  | .fixed _ _ => s.FixedSession
  | .variant n _ => n ≠ 0 ∧ s.cart.mapperNumber = n ∧ n ∈ s.par.mapperNumbers

/-- The position between two operations (R16, R17). -/
def Ppu.PositionOk (p : Ppu) : Prop :=
  p.dot ≤ 340#9 ∧
    match p.phase with
    | .preRender => p.scanline = 0#9
    | .render => p.scanline ≤ 239#9
    | .postRender => p.scanline = 240#9
    | .verticalBlank => 241#9 ≤ p.scanline ∧ p.scanline ≤ 260#9

/-- At most eight sprite indices, in increasing order (R29). -/
def Ppu.SpritesOk (p : Ppu) : Prop := p.lineSprites.length ≤ 8 ∧ p.lineSprites.Pairwise (· < ·)

/-- The CHR RAM of the session, empty where it has none (R34). -/
def State.chrRamCells (s : State) : ByteMemory :=
  match s.mapper with
  | .fixed _ none => []
  | .fixed _ (some ram) => ram
  | .variant _ st => st.chrRam

/-- Every memory of the session is in canonical form, with no entry outside its size (R27, R31, R33, R34, R6). -/
def State.MemoryOk (s : State) : Prop :=
  Memory.wf 256 s.ppu.oam
    ∧ (∀ y : Fin 240, Memory.wf 256 s.ppu.fb[y])
    ∧ Memory.wf 2048 s.pb.ntRam
    ∧ Memory.wf 32 s.pb.palette
    ∧ Memory.wf chrRamSize s.chrRamCells
    ∧ Memory.wf s.cart.prg.size s.cart.prg.cells
    ∧ Memory.wf s.cart.chr.size s.cart.chr.cells

/-- The invariant of the machine. -/
def State.Inv (s : State) : Prop := s.ppu.PositionOk ∧ s.ppu.SpritesOk ∧ s.MemoryOk ∧ s.SessionOk

/-- The state a refused operation leaves (R143): only the mark changes, and only where there was none; the reason is
also what the operation gives back. -/
def refusedState (s : State) (r : RefuseReason) : State :=
  { s with
    out := { s.out with
      refused := match s.out.refused with
        | none => some r
        | some first => some first }
    result := .refused r }

/-- "Rendering enabled", as R88 defines it, on the session's parameter and the two show flags. -/
def State.RenderingOn (s : State) : Prop :=
  (s.par.renderEnable = .both ∧ s.ppu.showBackground = true ∧ s.ppu.showSprites = true)
    ∨ (s.par.renderEnable = .either ∧ (s.ppu.showBackground = true ∨ s.ppu.showSprites = true))

/-- The dot that follows a line end (R108). -/
def lineStart (par : Params) : BitVec 9 :=
  match par.lineWrap with
  | .dot0 => 0#9
  | .dot1 => 1#9

/-- The PPU port operations of spec/40_ppu_ports.md (R72, R86). -/
def isPortOp : Instr → Bool
  | .ppuctrlW _ _ | .ppuctrlR _ | .ppumaskW _ _ | .ppumaskR _ | .ppustatusR _ | .ppustatusW _ _ => true
  | .oamaddrW _ _ | .oamaddrR _ | .oamdataR _ | .oamdataW _ _ | .oamdmaW _ | .oamdmaR => true
  | .ppuscrollW _ _ | .ppuscrollR _ | .ppuaddrW _ _ | .ppuaddrR _ | .ppudataR _ | .ppudataW _ _ => true
  | _ => false

/-- The controller operations of spec/45_controller.md. -/
def isControllerOp : Instr → Bool
  | .ctrlStrobeW _ | .ctrl1R | .ctrl2R | .buttons1 _ | .buttons2 _ => true
  | _ => false

/-- The PictureBus write transactions of spec/44_picture_bus.md (R133). -/
def isBusWrite : Instr → Bool
  | .pbPatW _ _ | .pbNtW _ _ | .pbNtW3000 _ _ | .pbNtW3800 _ _ | .pbNtW3C00 _ _ | .pbNtW3E00 _ _ => true
  | .pbPalW _ _ | .pbOodW _ _ | .pbOodW8000 _ _ => true
  | _ => false

/-- What a CPU read of the PRG window gives in a session of variant `n` (R117 I1, I3): the byte at the offset that the
variant resolves the address to, or the fault where that offset is past the end of the PRG buffer. -/
def prgReadOutcome (s : State) (n : Nat) (st : VariantState) (a : BitVec 15) : Outcome :=
  let offset := (Config.mapperVariant n).prgOffset s.cart st (prgWindowAddr a)
  if offset < s.cart.prg.size then .next { s with result := .byte (Memory.read s.cart.prg.cells offset) }
  else .fault .mapperOutOfBounds

/-- What a pattern-table read gives in a session of variant `n` (R117 I1, I3): the byte of CHR ROM or CHR RAM at the offset
that the variant resolves the address to, or the fault where that offset is past the end of the buffer. -/
def chrReadOutcome (s : State) (n : Nat) (st : VariantState) (a : BitVec 13) : Outcome :=
  match (Config.mapperVariant n).chrTarget s.cart st (0#3 ++ a) with
  | .rom offset =>
    if offset < s.cart.chr.size then .next { s with result := .byte (Memory.read s.cart.chr.cells offset) }
    else .fault .mapperOutOfBounds
  | .ram offset =>
    if offset < 8192 then .next { s with result := .byte (Memory.read st.chrRam offset) } else .fault .mapperOutOfBounds

/-- `o` is the outcome of a mapper write of byte `b` to which variant `n` answers `w` (R117 c, d, I1, I2): the fault where it
has no answer or stores past the end of CHR RAM; else the next state, with the answer's bank state and the byte stored, whose
very next reads resolve with the new bank state. -/
def HonouredWrite (s : State) (n : Nat) (st : VariantState) (w : Option VariantWrite) (b : Byte) (o : Outcome) : Prop :=
  match w with
  | none => o = .fault .mapperOutOfBounds
  | some w =>
    ((∃ k, w.chrStore = some k ∧ 8192 ≤ k) → o = .fault .mapperOutOfBounds)
      ∧ ((∀ k, w.chrStore = some k → k < 8192) →
        ∃ (t : State) (st' : VariantState),
          o = .next t ∧ t = { s with mapper := .variant n st', result := .nothing } ∧ st'.banks = w.banks
            ∧ (∀ k, w.chrStore = some k → Memory.read st'.chrRam k = b)
            ∧ (∀ k, w.chrStore ≠ some k → Memory.read st'.chrRam k = Memory.read st.chrRam k)
            ∧ (∀ a, exec (.prgR a) t = prgReadOutcome t n st' a)
            ∧ ∀ a, exec (.pbPatR a) t = chrReadOutcome t n st' a)

/-- The nametable RAM index of bus address `a`, by the table of R135 written as numbers. -/
def ntIndex (m : Mirroring) (a : Nat) : Nat :=
  (match m with
    | .vertical => 0x400 * (a / 0x400 % 2)
    | .horizontal => 0x400 * (a / 0x800 % 2)
    | .singleLow => 0
    | .singleHigh => 0x400) + a % 0x400

/-- The palette entry of index `i`, by R136 written as numbers. -/
def paletteSlot (mode : PaletteAlias) (i : Nat) : Nat :=
  match mode with
  | .plain => i
  | .hw => if i = 0x10 ∨ i = 0x14 ∨ i = 0x18 ∨ i = 0x1C then i - 0x10 else i

/-- The number of the line at the PPU's position within its frame (R106). -/
def lineOrdinal (p : Ppu) : Nat :=
  match p.phase with
  | .preRender => 0
  | .render => p.scanline.toNat + 1
  | .postRender => 241
  | .verticalBlank => p.scanline.toNat + 1

/-- The `cycle()` calls of a whole line (R105): dots 0..340, or dots 1..340. -/
def lineCalls (par : Params) : Nat :=
  match par.lineWrap with
  | .dot0 => 341
  | .dot1 => 340

/-- The number of the dot at the PPU's position within a frame of 262 whole lines (R106). -/
def dotOrdinal (par : Params) (p : Ppu) : Nat := lineCalls par * lineOrdinal p + p.dot.toNat - (lineStart par).toNat

/-- `k` consecutive calls of the operation `i` (`CYC k` of R70), stopping where one has no next state. -/
def repeated (i : Instr) : Nat → State → Outcome
  | 0, s => .next s
  | k + 1, s =>
    match exec i s with
    | .next t => repeated i k t
    | .fault f => .fault f
    | .refused r => .refused r

end Sys2Proof.Machine
end

