-- ==== Sys2Proof/Certificates/Slice0/Obligations.lean ====
section
/-! DEFINITION. The statements for the provers, from the numbered rules of spec/. -/

open Sys2Proof Sys2Proof.Machine

section Encoding

/-- R53, R54, R55, R131: words written out from the spec's encoding decode to the operation they stand for. A sanity
statement. -/
def Obligations.WrittenWordsDecode : Prop :=
  decode (callData 0x12000#20 0x82#8) = .instr (.ppuctrlW 0#10 0x82#8)
    ∧ decode (callPlain 0x03FFF#20) = .instr (.ppudataR 0x3FF#10)
    ∧ decode (callData 0x14014#20 0x80#8) = .instr (.oamdmaW 0x80#8)
    ∧ decode (callData 0x14016#20 0x01#8) = .instr (.ctrlStrobeW 0x01#8)
    ∧ decode (callPlain 0x04017#20) = .instr .ctrl2R
    ∧ decode (callPlain 0x0C123#20) = .instr (.prgR 0x4123#15)
    ∧ decode (callPlain 0x41234#20) = .instr (.pbPatR 0x1234#13)
    ∧ decode (callData 0x53E42#20 0x55#8) = .instr (.pbNtW3E00 0x42#8 0x55#8)
    ∧ decode (callPlain 0x60011#20) = .instr (.pbRdpal 0x11#5)
    ∧ decode (callPlain 0x80000#20) = .instr .cycle
    ∧ decode { tw := 0x80004#20, data := 0#8, x := 16, y := 16 } = .instr (.fbread 16 16)

/-- R53 to R55, R67: decoding an encoded operation gives it back, for every operation and every value of its operands,
those of an `FBREAD` outside the picture included. -/
def Obligations.DecodeOfEncodeIsIdentity : Prop :=
  ∀ i : Instr, decode (encode i) = .instr i

/-- R67, R53 (the spec's decision D50): the transaction word that decodes to an operation is the one the encoder gives
it, so each of its 20 bits is in some field of the operation, or is one of the bits that select the row; and an operation
that takes a data byte, or a column and a row, takes those of the call. -/
def Obligations.EncodeOfDecodeKeepsEveryBit : Prop :=
  ∀ (c : Call) (i : Instr), decode c = .instr i →
    (encode i).tw = c.tw
      ∧ (twW c.tw = 1#1 ∨ c.tw = 0x80002#20 ∨ c.tw = 0x80003#20 → (encode i).data = c.data)
      ∧ (∀ x y, i = .fbread x y → x = c.x ∧ y = c.y)

/-- R67: the rows of spec/opcode_table.json are pairwise disjoint; a word decodes to a row's operation exactly when it
meets the row's match under its mask; and every operation has its row. -/
def Obligations.TableRowsDecideDecoding : Prop :=
  opcodeRows.Pairwise (fun r q => ∀ tw : BitVec 20, ¬(tw &&& r.mask = r.pattern ∧ tw &&& q.mask = q.pattern))
    ∧ (∀ row ∈ opcodeRows, ∀ c : Call,
        c.tw &&& row.mask = row.pattern ↔ ∃ i, decode c = .instr i ∧ i.mnemonic = row.mnemonic)
    ∧ ∀ i : Instr, ∃ row ∈ opcodeRows, row.mnemonic = i.mnemonic

/-- R68: every reserved word, (a) to (f), each with its outcome: the refusal that names it, or the fault. That a word which
meets (b) and also (d) or (e) gets `ReservedBits` is the model's choice (log 16). -/
def Obligations.ReservedWordsHaveTheirOutcomes : Prop :=
  ∀ (s : State) (c : Call), s.Alive →
    (twSpace c.tw = 3#2 → step (withCall s c) = .next (refusedState s .reservedSpace))
      ∧ ((twSpace c.tw = 0#2 ∨ twSpace c.tw = 2#2) ∧ twP c.tw = 1#1
          → step (withCall s c) = .next (refusedState s .reservedBits))
      ∧ (twSpace c.tw = 2#2 ∧ twP c.tw = 0#1 ∧ twW c.tw = 1#1
          → step (withCall s c) = .next (refusedState s .reservedBits))
      ∧ (twSpace c.tw = 1#2 ∧ twP c.tw = 1#1 ∧ twW c.tw = 1#1
          → step (withCall s c) = .next (refusedState s .reservedBits))
      ∧ (twSpace c.tw = 1#2 ∧ twP c.tw = 1#1 ∧ twW c.tw = 0#1 ∧ 31 < (twA c.tw).toNat
          → step (withCall s c) = .fault .busOutOfDomain)
      ∧ (twSpace c.tw = 2#2 ∧ twP c.tw = 0#1 ∧ twW c.tw = 0#1 ∧ 4 < (twA c.tw).toNat
          → step (withCall s c) = .next (refusedState s .unknownHostCall))
      ∧ (twSpace c.tw = 0#2 ∧ twP c.tw = 0#1
            ∧ ((twA c.tw).toNat < 0x2000
              ∨ (0x4000 ≤ (twA c.tw).toNat ∧ (twA c.tw).toNat < 0x8000
                ∧ (twA c.tw).toNat ≠ 0x4014 ∧ (twA c.tw).toNat ≠ 0x4016
                ∧ ((twA c.tw).toNat = 0x4017 → twW c.tw = 1#1)))
          → step (withCall s c) = .next (refusedState s .notInBlock))
      ∧ (twSpace c.tw = 1#2 ∧ twP c.tw = 0#1 ∧ 0x4000 ≤ (twA c.tw).toNat
          → step (withCall s c) = .fault .busOutOfDomain)

end Encoding

section Steps

/-- R5, R67, and the model's own schedule of log 1: when the next call of the driver decodes to an operation, a step runs
exactly that operation, on the state with the call taken off the schedule; while the driver makes no call, a live block
stays as it is (R155). What a step does with a reserved word is `ReservedWordsHaveTheirOutcomes`. -/
def Obligations.StepRunsTheDecodedCall : Prop :=
  (∀ (s : State) (c : Call) (rest : List Call) (i : Instr),
      s.schedule = c :: rest → decode c = .instr i → step s = exec i { s with schedule := rest })
    ∧ ∀ s : State, s.Alive → s.schedule = [] → step s = .next s

/-- R36, R142, R143 (the spec's decision D41): once a fault is recorded, no operation has a next state, whatever the
operation and whatever the driver calls next, a reset included; and no step removes or replaces the first refusal. -/
def Obligations.FaultAndRefusalMarksAreKept : Prop :=
  (∀ (s : State) (f : Fault), s.out.faulted = some f → (∀ i, exec i s = .fault f) ∧ step s = .fault f)
    ∧ ∀ (s t : State) (r : RefuseReason), s.out.refused = some r → step s = .next t → t.out.refused = some r

end Steps

section Invariants

/-- R37, R158: the state after construction and reset meets the invariant, and holds the values that the spec's decisions
D23, D24, D38 and D40 give every PPU scalar, the controllers and the output records. The contents of the memories are the
model's choice, log 3, and the cartridge is that of log 4. -/
def Obligations.ResetMeetsTheInvariant : Prop :=
  State.reset.Inv ∧ State.reset.FixedSession ∧ State.reset.Successful
    ∧ State.reset.ppu =
      { phase := .preRender, scanline := 0#9, dot := 0#9, evenFrame := true, v := 0#15, t := 0#15, fineX := 0#3,
        firstWrite := true, generateInterrupt := false, longSprites := false, bgPage := 0#1, sprPage := 0#1,
        increment := .by1, greyscale := false, showBackground := false, showSprites := false,
        hideEdgeBackground := true, hideEdgeSprites := true, vblank := false, sprZeroHit := false,
        oam := State.reset.ppu.oam, oamAddr := 0#8, lineSprites := [], readBuffer := State.reset.ppu.readBuffer,
        fb := State.reset.ppu.fb }
    ∧ State.reset.ctrl1 = { isStrobe := false, buttons := 0#8, bits := 0#8 }
    ∧ State.reset.ctrl2 = { isStrobe := false, buttons := 0#8, bits := 0#8 }
    ∧ State.reset.out = { nmiCount := 0, diagLog := [], faulted := none, refused := none }

/-- R27, R31, R33, R34: every memory keeps its canonical form and its size at every step, from every state. -/
def Obligations.EveryStepKeepsTheMemoryForm : Prop :=
  ∀ s t : State, s.MemoryOk → step s = .next t → t.MemoryOk

/-- R16, R17, R29, R87: from every legal position, every step leaves a legal position, so the counters never leave their
ranges; and every step keeps the sprite list at most eight long and in increasing order. -/
def Obligations.EveryStepKeepsThePositionLegal : Prop :=
  ∀ s t : State, step s = .next t →
    (s.ppu.PositionOk → t.ppu.PositionOk) ∧ (s.ppu.SpritesOk → t.ppu.SpritesOk)

/-- R13, R6, R34, R116: no step changes the cartridge, a parameter, or which mapper variant the session has. -/
def Obligations.EveryStepKeepsTheSession : Prop :=
  ∀ s t : State, step s = .next t →
    t.cart = s.cart ∧ t.par = s.par
      ∧ (∀ one ram, s.mapper = .fixed one ram → ∃ ram', t.mapper = .fixed one ram' ∧ (ram' = none ↔ ram = none))
      ∧ (∀ n st, s.mapper = .variant n st → ∃ st', t.mapper = .variant n st')
      ∧ (s.SessionOk → t.SessionOk)

end Invariants

section WholeMachine

/-- R72: a port operation is legal at every position of a live fixed-mapping session; it moves no position counter,
emits no interrupt signal, and has no next state after a fault. -/
def Obligations.PortOperationsKeepThePosition : Prop :=
  ∀ (i : Instr) (s : State), isPortOp i = true →
    (s.Alive → s.FixedSession → ∃ t, exec i s = .next t)
      ∧ (∀ t, exec i s = .next t →
          t.ppu.phase = s.ppu.phase ∧ t.ppu.scanline = s.ppu.scanline ∧ t.ppu.dot = s.ppu.dot
            ∧ t.ppu.evenFrame = s.ppu.evenFrame ∧ t.out.nmiCount = s.out.nmiCount ∧ t.result ≠ .interrupt)
      ∧ (s.out.faulted ≠ none → ∀ t, exec i s ≠ .next t)

/-- R103, R146, R148: the interrupt signal is emitted by the `cycle()` that executes dot 1 of scanline 241 with the
interrupt enabled, once, and by no other operation. -/
def Obligations.InterruptOnlyAtTheVblankDot : Prop :=
  ∀ (i : Instr) (s t : State), exec i s = .next t →
    (i = .cycle ∧ s.ppu.phase = .verticalBlank ∧ s.ppu.scanline = 241#9 ∧ s.ppu.dot = 1#9
        ∧ s.ppu.generateInterrupt = true
        ∧ t.out.nmiCount = s.out.nmiCount + 1 ∧ t.result = .interrupt ∧ t.ppu.vblank = true)
      ∨ (¬(i = .cycle ∧ s.ppu.phase = .verticalBlank ∧ s.ppu.scanline = 241#9 ∧ s.ppu.dot = 1#9
          ∧ s.ppu.generateInterrupt = true)
        ∧ t.out.nmiCount = s.out.nmiCount ∧ t.result ≠ .interrupt)

/-- R25: `vblank` is set only by `cycle()` at dot 1 of scanline 241, cleared only by `cycle()` at pre-render dot 1, by a
status read and by a reset, and is bit 7 of the status byte. -/
def Obligations.VblankHasOnlyItsWriters : Prop :=
  ∀ (i : Instr) (s t : State), exec i s = .next t →
    (s.ppu.vblank = false → t.ppu.vblank = true →
        i = .cycle ∧ s.ppu.phase = .verticalBlank ∧ s.ppu.scanline = 241#9 ∧ s.ppu.dot = 1#9)
      ∧ (s.ppu.vblank = true → t.ppu.vblank = false →
        (i = .cycle ∧ s.ppu.phase = .preRender ∧ s.ppu.dot = 1#9) ∨ (∃ m, i = .ppustatusR m) ∨ i = .reset)
      ∧ (i = .cycle → s.ppu.phase = .verticalBlank → s.ppu.scanline = 241#9 → s.ppu.dot = 1#9 → t.ppu.vblank = true)
      ∧ (i = .cycle → s.ppu.phase = .preRender → s.ppu.dot = 1#9 → t.ppu.vblank = false)
      ∧ (i = .reset → t.ppu.vblank = false)
      ∧ (∀ m, i = .ppustatusR m → t.ppu.vblank = false ∧ ∃ b, t.result = .byte b ∧ b.getLsbD 7 = s.ppu.vblank)

/-- R26: `sprZeroHit` is set only by the pixel algorithm, cleared only at pre-render dot 1 and by a reset; a status read
keeps it (C1) and gives it as bit 6. -/
def Obligations.SpriteZeroHitHasOnlyItsWriters : Prop :=
  ∀ (i : Instr) (s t : State), exec i s = .next t →
    (s.ppu.sprZeroHit = false → t.ppu.sprZeroHit = true →
        i = .cycle ∧ s.ppu.phase = .render ∧ 1#9 ≤ s.ppu.dot ∧ s.ppu.dot ≤ 256#9)
      ∧ (s.ppu.sprZeroHit = true → t.ppu.sprZeroHit = false →
        (i = .cycle ∧ s.ppu.phase = .preRender ∧ s.ppu.dot = 1#9) ∨ i = .reset)
      ∧ (i = .cycle → s.ppu.phase = .preRender → s.ppu.dot = 1#9 → t.ppu.sprZeroHit = false)
      ∧ (i = .reset → t.ppu.sprZeroHit = false)
      ∧ (∀ m, i = .ppustatusR m →
          t.ppu.sprZeroHit = s.ppu.sprZeroHit ∧ ∃ b, t.result = .byte b ∧ b.getLsbD 6 = s.ppu.sprZeroHit)

/-- R31, R109: the frame buffer is written only by `cycle()` at a visible dot, and there only the entry of that dot's
column and row. -/
def Obligations.FrameBufferIsWrittenOnlyByThePixel : Prop :=
  ∀ (i : Instr) (s t : State), exec i s = .next t →
    t.ppu.fb = s.ppu.fb
      ∨ (i = .cycle ∧ s.ppu.phase = .render ∧ 1#9 ≤ s.ppu.dot ∧ s.ppu.dot ≤ 256#9
        ∧ ∀ x y, ¬(x = s.ppu.dot.toNat - 1 ∧ y = s.ppu.scanline.toNat) → fbRead t.ppu.fb x y = fbRead s.ppu.fb x y)

/-- R27, R33, R34: OAM is written only by the OAM data port and DMA; the PictureBus memories and the mapper state only by
VRAM data writes, PictureBus write transactions and PRG writes, and of these a PRG write and a pattern write leave the
PictureBus memories, and a nametable or palette write leaves the mapper; the cartridge buffers are written by nothing. -/
def Obligations.MemoriesHaveOnlyTheirWriters : Prop :=
  ∀ (i : Instr) (s t : State), exec i s = .next t →
    ((∀ m b, i ≠ .oamdataW m b) → (∀ n, i ≠ .oamdmaW n) → t.ppu.oam = s.ppu.oam)
      ∧ ((∀ m b, i ≠ .ppudataW m b) → isBusWrite i = false → (∀ a b, i ≠ .prgW a b) →
        t.pb = s.pb ∧ t.mapper = s.mapper)
      ∧ ((∃ a b, i = .prgW a b) ∨ (∃ a b, i = .pbPatW a b) → t.pb = s.pb)
      ∧ (isBusWrite i = true → (∀ a b, i ≠ .pbPatW a b) → t.mapper = s.mapper)
      ∧ t.cart.prg = s.cart.prg ∧ t.cart.chr = s.cart.chr

/-- R36, R144 (decision D32): the diagnostic log only grows, by at most one record an operation, and only at writes that
reach the mapper. -/
def Obligations.DiagnosticLogOnlyGrows : Prop :=
  ∀ (i : Instr) (s t : State), exec i s = .next t →
    (∃ l, l.length ≤ 1 ∧ t.out.diagLog = s.out.diagLog ++ l)
      ∧ (t.out.diagLog ≠ s.out.diagLog →
        (∃ m b, i = .ppudataW m b) ∨ (∃ a b, i = .prgW a b) ∨ (∃ a b, i = .pbPatW a b))

/-- R24 (decision D12): `greyscale` is stored and has no effect: two states that differ in it alone run every operation
alike, and differ in it alone, or not at all, after it. -/
def Obligations.GreyscaleHasNoEffect : Prop :=
  ∀ (i : Instr) (s : State) (g : Bool),
    match exec i s with
    | .next t => ∃ g', exec i { s with ppu := { s.ppu with greyscale := g } }
        = .next { t with ppu := { t.ppu with greyscale := g' } }
    | .fault f => exec i { s with ppu := { s.ppu with greyscale := g } } = .fault f
    | .refused r => exec i { s with ppu := { s.ppu with greyscale := g } } = .refused r

end WholeMachine

section Ports

/-- R74: the control write, with every bit of its layout (R56); bit 6 has no effect, and nothing else changes. -/
def Obligations.ControlWriteSetsItsFields : Prop :=
  ∀ (m : BitVec 10) (b : Byte) (s : State), s.Alive →
    ∃ T : BitVec 15,
      exec (.ppuctrlW m b) s = .next { s with
          ppu := { s.ppu with
            generateInterrupt := b.getLsbD 7
            longSprites := b.getLsbD 5
            bgPage := b.extractLsb' 4 1
            sprPage := b.extractLsb' 3 1
            increment := if b.getLsbD 2 then .by32 else .by1
            t := T }
          result := .nothing }
        ∧ T.extractLsb' 10 2 = b.extractLsb' 0 2
        ∧ T.extractLsb' 12 3 = s.ppu.t.extractLsb' 12 3
        ∧ T.extractLsb' 0 10 = s.ppu.t.extractLsb' 0 10

/-- R75: the mask write, with every bit of its layout (R57); bits 7..5 have no effect, and nothing else changes. -/
def Obligations.MaskWriteSetsItsFields : Prop :=
  ∀ (m : BitVec 10) (b : Byte) (s : State), s.Alive →
    exec (.ppumaskW m b) s = .next { s with
      ppu := { s.ppu with
        greyscale := b.getLsbD 0
        hideEdgeBackground := !b.getLsbD 1
        hideEdgeSprites := !b.getLsbD 2
        showBackground := b.getLsbD 3
        showSprites := b.getLsbD 4 }
      result := .nothing }

/-- R76, R58: the status read gives vblank as bit 7, sprite-zero hit as bit 6 and zeros below, clears vblank alone and
resets the toggle; a second read gives bit 7 = 0 and the same bit 6. -/
def Obligations.StatusReadClearsVblankOnly : Prop :=
  ∀ (m : BitVec 10) (s : State), s.Alive →
    ∃ d e : Byte,
      exec (.ppustatusR m) s = .next { s with
          ppu := { s.ppu with vblank := false, firstWrite := true }, result := .byte d }
        ∧ d.getLsbD 7 = s.ppu.vblank ∧ d.getLsbD 6 = s.ppu.sprZeroHit ∧ d.extractLsb' 0 6 = 0#6
        ∧ (∀ t, exec (.ppustatusR m) s = .next t → exec (.ppustatusR m) t = .next { t with result := .byte e })
        ∧ e.getLsbD 7 = false ∧ e.getLsbD 6 = s.ppu.sprZeroHit

/-- R78, R79, R80: the OAM address write sets the cursor; the OAM data read gives the byte at the cursor and changes
nothing; the OAM data write stores at the cursor, leaves every other byte, and moves the cursor on modulo 256. -/
def Obligations.OamPortsUseTheCursor : Prop :=
  ∀ (m : BitVec 10) (b : Byte) (s : State), s.Alive →
    exec (.oamaddrW m b) s = .next { s with ppu := { s.ppu with oamAddr := b }, result := .nothing }
      ∧ exec (.oamdataR m) s = .next { s with result := .byte (Memory.read s.ppu.oam s.ppu.oamAddr.toNat) }
      ∧ ∃ O c, exec (.oamdataW m b) s = .next { s with
            ppu := { s.ppu with oam := O, oamAddr := c }, result := .nothing }
          ∧ c.toNat = (s.ppu.oamAddr.toNat + 1) % 256
          ∧ Memory.read O s.ppu.oamAddr.toNat = b
          ∧ ∀ a, a ≠ s.ppu.oamAddr.toNat → Memory.read O a = Memory.read s.ppu.oam a

/-- R81: the scroll write: with the toggle at first, coarse X and fine X; else coarse Y and fine Y; every other bit of
`t` stays, `v` stays, and the toggle flips (R59, R69). -/
def Obligations.ScrollWriteFollowsTheToggle : Prop :=
  ∀ (m : BitVec 10) (b : Byte) (s : State), s.Alive →
    ∃ T : BitVec 15,
      (s.ppu.firstWrite = true →
        exec (.ppuscrollW m b) s = .next { s with
            ppu := { s.ppu with t := T, fineX := b.extractLsb' 0 3, firstWrite := false }, result := .nothing }
          ∧ T.extractLsb' 0 5 = b.extractLsb' 3 5
          ∧ T.extractLsb' 5 10 = s.ppu.t.extractLsb' 5 10)
      ∧ (s.ppu.firstWrite = false →
        exec (.ppuscrollW m b) s = .next { s with
            ppu := { s.ppu with t := T, firstWrite := true }, result := .nothing }
          ∧ T.extractLsb' 5 5 = b.extractLsb' 3 5
          ∧ T.extractLsb' 12 3 = b.extractLsb' 0 3
          ∧ T.extractLsb' 0 5 = s.ppu.t.extractLsb' 0 5
          ∧ T.extractLsb' 10 2 = s.ppu.t.extractLsb' 10 2)

/-- R82, R60: the address write: with the toggle at first, the high six bits of the address and a cleared bit 14, the top
two bits of the byte ignored; else the low eight bits, and the address commits to `v`. A fresh pair `hi`, `lo` gives the
current address `((hi & 0x3F) << 8) | lo`, and a third write is a fresh first write. -/
def Obligations.AddressWriteFollowsTheToggle : Prop :=
  ∀ (m : BitVec 10) (b : Byte) (s : State), s.Alive →
    (∃ T : BitVec 15,
      (s.ppu.firstWrite = true →
        exec (.ppuaddrW m b) s = .next { s with
            ppu := { s.ppu with t := T, firstWrite := false }, result := .nothing }
          ∧ T.extractLsb' 8 6 = b.extractLsb' 0 6
          ∧ T.extractLsb' 14 1 = 0#1
          ∧ T.extractLsb' 0 8 = s.ppu.t.extractLsb' 0 8)
      ∧ (s.ppu.firstWrite = false →
        exec (.ppuaddrW m b) s = .next { s with
            ppu := { s.ppu with t := T, v := T, firstWrite := true }, result := .nothing }
          ∧ T.extractLsb' 0 8 = b
          ∧ T.extractLsb' 8 7 = s.ppu.t.extractLsb' 8 7))
    ∧ (s.ppu.firstWrite = true → ∀ lo third : Byte, ∃ t u w,
        exec (.ppuaddrW m b) s = .next t ∧ exec (.ppuaddrW m lo) t = .next u ∧ exec (.ppuaddrW m third) u = .next w
          ∧ u.ppu.v.toNat = (b.toNat % 64) * 256 + lo.toNat ∧ u.ppu.t = u.ppu.v ∧ u.ppu.firstWrite = true
          ∧ w.ppu.v = u.ppu.v ∧ w.ppu.firstWrite = false)

/-- R83, R73: the data read fetches at the low 14 bits of `v`, adds the increment modulo 2^15, and is delayed through the
read buffer when the address tested is below 0x3F00; a palette-range read leaves the buffer. -/
def Obligations.DataReadIsDelayedBelowThePalette : Prop :=
  ∀ (m : BitVec 10) (s : State), s.Alive → s.FixedSession →
    ∃ (a : Addr) (d : Byte) (v' : BitVec 15),
      a.toNat = s.ppu.v.toNat % 0x4000 ∧ pbRead s a = .ok d
        ∧ v'.toNat = (s.ppu.v.toNat + if s.ppu.increment = .by1 then 1 else 32) % 0x8000
        ∧ ((s.par.readDelayAddr = .pre ∧ a.toNat < 0x3F00) ∨ (s.par.readDelayAddr = .post ∧ v'.toNat < 0x3F00) →
          exec (.ppudataR m) s = .next { s with
            ppu := { s.ppu with v := v', readBuffer := d }, result := .byte s.ppu.readBuffer })
        ∧ ((s.par.readDelayAddr = .pre ∧ 0x3F00 ≤ a.toNat) ∨ (s.par.readDelayAddr = .post ∧ 0x3F00 ≤ v'.toNat) →
          exec (.ppudataR m) s = .next { s with ppu := { s.ppu with v := v' }, result := .byte d })

/-- R84, R73: the data write stores through the PictureBus at the low 14 bits of `v` and adds the increment modulo 2^15;
the read buffer stays. -/
def Obligations.DataWriteStoresAndIncrements : Prop :=
  ∀ (m : BitVec 10) (b : Byte) (s : State), s.Alive → s.FixedSession →
    ∃ (a : Addr) (u : State) (v' : BitVec 15),
      a.toNat = s.ppu.v.toNat % 0x4000 ∧ pbWrite s a b = .ok u
        ∧ v'.toNat = (s.ppu.v.toNat + if s.ppu.increment = .by1 then 1 else 32) % 0x8000
        ∧ exec (.ppudataW m b) s = .next { u with ppu := { s.ppu with v := v' }, result := .nothing }

/-- R85: DMA copies 256 bytes into OAM from the cursor on, modulo 256, each byte once: from PRG for a page of 0x80 or
above (the page's offset by R125), else from the CPU side's page, a free value (log 7); the cursor stays. -/
def Obligations.DmaCopiesThePageFromTheCursor : Prop :=
  ∀ (n : Byte) (s : State), s.Alive → s.FixedSession →
    ∃ O : ByteMemory,
      (0x80 ≤ n.toNat →
        exec (.oamdmaW n) s = .next { s with ppu := { s.ppu with oam := O }, result := .nothing }
          ∧ ∀ one ram, s.mapper = .fixed one ram → ∀ k : Nat, k < 256 →
            Memory.read O ((s.ppu.oamAddr.toNat + k) % 256)
              = Memory.read s.cart.prg.cells
                  ((if one then (n.toNat * 256 - 0x8000) % 0x4000 else n.toNat * 256 - 0x8000) + k))
      ∧ (n.toNat < 0x80 →
        exec (.oamdmaW n) s = .next { s with
            ppu := { s.ppu with oam := O }, draws := s.draws + 1, result := .nothing }
          ∧ ∀ k : Byte, Memory.read O ((s.ppu.oamAddr.toNat + k.toNat) % 256) = Config.cpuPage s.draws n k)

/-- R86, R77 (the spec's decision D21): a read of each of the six write-only ports gives a fresh draw of `P_OPEN_READ`,
the free value of log 6, and changes nothing but the model's count of draws; a write to the status port changes nothing. -/
def Obligations.OppositeDirectionsOfThePorts : Prop :=
  ∀ (m : BitVec 10) (b : Byte) (s : State) (i : Instr), s.Alive →
    ((i = .ppuctrlR m ∨ i = .ppumaskR m ∨ i = .oamaddrR m ∨ i = .ppuscrollR m ∨ i = .ppuaddrR m ∨ i = .oamdmaR) →
        exec i s = .next { s with draws := s.draws + 1, result := .byte (Config.openRead s.draws) })
      ∧ exec (.ppustatusW m b) s = .next { s with result := .nothing }

end Ports

section MapperAndBus

/-- R118, R125, R126: a CPU read of the PRG window of a fixed-mapping session gives the PRG byte at the resolved offset
and changes nothing; with one bank, `$C000-$FFFF` mirrors `$8000-$BFFF`. -/
def Obligations.PrgReadResolvesTheBank : Prop :=
  ∀ (a : BitVec 15) (s : State), s.Alive → s.FixedSession →
    ∀ one ram, s.mapper = .fixed one ram →
      exec (.prgR a) s = .next { s with
          result := .byte (Memory.read s.cart.prg.cells (if one then a.toNat % 0x4000 else a.toNat)) }

/-- R119, R127: a CPU write of the PRG window of a fixed-mapping session changes nothing but the diagnostic log. -/
def Obligations.PrgWriteLeavesADiagnostic : Prop :=
  ∀ (a : BitVec 15) (b : Byte) (s : State), s.Alive → s.FixedSession →
    ∃ A : Addr, A.toNat = 0x8000 + a.toNat
      ∧ exec (.prgW a b) s = .next { s with
          out := { s.out with diagLog := s.out.diagLog ++ [.prgWriteIgnored A b] }, result := .nothing }

/-- R120, R121, R128, R129: a pattern-table read gives the CHR ROM or CHR RAM byte at the address and changes nothing; a
write to CHR ROM leaves a diagnostic alone, and a write to CHR RAM stores that byte and no other. -/
def Obligations.PatternAccessGoesToCharacterMemory : Prop :=
  ∀ (a : BitVec 13) (b : Byte) (s : State), s.Alive → s.FixedSession →
    (∀ one, s.mapper = .fixed one none →
        exec (.pbPatR a) s = .next { s with result := .byte (Memory.read s.cart.chr.cells a.toNat) }
          ∧ ∃ A : Addr, A.toNat = a.toNat
            ∧ exec (.pbPatW a b) s = .next { s with
                out := { s.out with diagLog := s.out.diagLog ++ [.chrWriteIgnored A b] }, result := .nothing })
      ∧ (∀ one ram, s.mapper = .fixed one (some ram) →
        exec (.pbPatR a) s = .next { s with result := .byte (Memory.read ram a.toNat) }
          ∧ ∃ ram', exec (.pbPatW a b) s = .next { s with mapper := .fixed one (some ram'), result := .nothing }
            ∧ Memory.read ram' a.toNat = b ∧ ∀ k, k ≠ a.toNat → Memory.read ram' k = Memory.read ram k)

/-- R131, R132, R135: a nametable read at each of the five address parts gives the byte of nametable RAM that the
mirroring names, and changes nothing. That `CART.mirroring` decides in a session of another variant too is the model's
choice (log 8). -/
def Obligations.NametableReadsFollowTheMirroring : Prop :=
  ∀ s : State, s.Alive →
    (∀ a, exec (.pbNtR a) s = .next { s with
        result := .byte (Memory.read s.pb.ntRam (ntIndex s.cart.mirroring (0x2000 + a.toNat))) })
      ∧ (∀ a, exec (.pbNtR3000 a) s = .next { s with
        result := .byte (Memory.read s.pb.ntRam (ntIndex s.cart.mirroring (0x3000 + a.toNat))) })
      ∧ (∀ a, exec (.pbNtR3800 a) s = .next { s with
        result := .byte (Memory.read s.pb.ntRam (ntIndex s.cart.mirroring (0x3800 + a.toNat))) })
      ∧ (∀ a, exec (.pbNtR3C00 a) s = .next { s with
        result := .byte (Memory.read s.pb.ntRam (ntIndex s.cart.mirroring (0x3C00 + a.toNat))) })
      ∧ (∀ a, exec (.pbNtR3E00 a) s = .next { s with
        result := .byte (Memory.read s.pb.ntRam (ntIndex s.cart.mirroring (0x3E00 + a.toNat))) })

/-- R131, R133, R135: a nametable write at each of the five address parts stores the byte of nametable RAM that the
mirroring names, leaves every other byte, and changes nothing else. That `CART.mirroring` decides in a session of another
variant too is the model's choice (log 8). -/
def Obligations.NametableWritesFollowTheMirroring : Prop :=
  ∀ (i : Instr) (A : Nat) (b : Byte) (s : State), s.Alive →
    ((∃ a, i = .pbNtW a b ∧ A = 0x2000 + a.toNat) ∨ (∃ a, i = .pbNtW3000 a b ∧ A = 0x3000 + a.toNat)
      ∨ (∃ a, i = .pbNtW3800 a b ∧ A = 0x3800 + a.toNat) ∨ (∃ a, i = .pbNtW3C00 a b ∧ A = 0x3C00 + a.toNat)
      ∨ (∃ a, i = .pbNtW3E00 a b ∧ A = 0x3E00 + a.toNat)) →
    ∃ N, exec i s = .next { s with pb := { s.pb with ntRam := N }, result := .nothing }
      ∧ Memory.read N (ntIndex s.cart.mirroring A) = b
      ∧ ∀ k, k ≠ ntIndex s.cart.mirroring A → Memory.read N k = Memory.read s.pb.ntRam k

/-- R132, R133, R134, R136: palette reads, writes and the direct palette read go to the entry that the index names under
the session's aliasing; a write stores all eight bits and leaves every other entry. -/
def Obligations.PaletteAccessFollowsTheAliasing : Prop :=
  ∀ (a : BitVec 8) (i : BitVec 5) (b : Byte) (s : State), s.Alive →
    exec (.pbPalR a) s = .next { s with
        result := .byte (Memory.read s.pb.palette (paletteSlot s.par.paletteAlias (a.toNat % 32))) }
      ∧ exec (.pbRdpal i) s = .next { s with
        result := .byte (Memory.read s.pb.palette (paletteSlot s.par.paletteAlias i.toNat)) }
      ∧ ∃ P, exec (.pbPalW a b) s = .next { s with pb := { s.pb with palette := P }, result := .nothing }
        ∧ Memory.read P (paletteSlot s.par.paletteAlias (a.toNat % 32)) = b
        ∧ ∀ k, k ≠ paletteSlot s.par.paletteAlias (a.toNat % 32) → Memory.read P k = Memory.read s.pb.palette k

/-- R132, R133, R142: a PictureBus access at an address of 0x4000 or above stops with the fault `BusOutOfDomain`. -/
def Obligations.BusAccessOutsideTheDomainFaults : Prop :=
  ∀ s : State, s.Alive →
    (∀ a, exec (.pbOodR a) s = .fault .busOutOfDomain)
      ∧ (∀ a, exec (.pbOodR8000 a) s = .fault .busOutOfDomain)
      ∧ (∀ a b, exec (.pbOodW a b) s = .fault .busOutOfDomain)
      ∧ (∀ a b, exec (.pbOodW8000 a b) s = .fault .busOutOfDomain)

/-- R117 (I1, I3, I4, I5), R123 (the spec's decisions D34 and D41): for every variant, a mapper operation outside its domain
faults, and a mapper write changes neither PPU, controller nor PictureBus state, nor the configuration, and emits no
interrupt; and in a session of another variant, a read gives the byte at the offset the variant resolves the address to, or
the fault `MapperOutOfBounds` where that offset is past the end of the buffer; and so does a page view, which faults where its
256 bytes pass the end of the buffer or of the bank (R122, decision D33). A variant is the record of log 8. -/
def Obligations.MapperKeepsItsContract : Prop :=
  ∀ (s : State) (a : Addr) (b : Byte),
    (a.toNat < 0x8000 →
      readPRG s a = .error .mapperOutOfDomain ∧ writePRG s a b = .error .mapperOutOfDomain
        ∧ getPagePtr s a = .error .mapperOutOfDomain)
    ∧ (0x1FFF < a.toNat →
      readCHR s a = .error .mapperOutOfDomain ∧ writeCHR s a b = .error .mapperOutOfDomain)
    ∧ (∀ t, writePRG s a b = .ok t ∨ writeCHR s a b = .ok t →
      t.ppu = s.ppu ∧ t.pb = s.pb ∧ t.ctrl1 = s.ctrl1 ∧ t.ctrl2 = s.ctrl2 ∧ t.cart = s.cart ∧ t.par = s.par
        ∧ t.out.nmiCount = s.out.nmiCount ∧ t.out.faulted = s.out.faulted ∧ t.out.refused = s.out.refused)
    ∧ ∀ n st, s.mapper = .variant n st → s.Alive →
      (∀ k, exec (.prgR k) s = prgReadOutcome s n st k)
        ∧ (∀ k, exec (.pbPatR k) s = chrReadOutcome s n st k)
        ∧ (0x8000 ≤ a.toNat →
          let offset := (Config.mapperVariant n).prgOffset s.cart st a
          if s.cart.prg.size < offset + 256 ∨ (Config.mapperVariant n).bankEnd s.cart st a < offset + 256 then
            getPagePtr s a = .error .mapperOutOfBounds
          else ∃ view, getPagePtr s a = .ok view ∧ ∀ k : Byte, view k = Memory.read s.cart.prg.cells (offset + k.toNat))

/-- R117 (c, d, I1, I2), R52, R119, R121 (the spec's decision D34; a variant as the record of log 8): in a session of a
variant other than the fixed one, a PRG write and a pattern write do what the variant answers: they fault where it has no
answer or stores past the end of CHR RAM, and else leave its new bank state and the byte it stores, and nothing else; and the
very next PRG and pattern reads resolve with the new bank state. -/
def Obligations.VariantWritesAreHonoured : Prop :=
  ∀ (s : State) (n : Nat) (st : VariantState) (b : Byte), s.Alive → s.mapper = .variant n st →
    (∀ a : BitVec 15, HonouredWrite s n st
        ((Config.mapperVariant n).writePRG s.cart st (prgWindowAddr a) b) b (exec (.prgW a b) s))
      ∧ ∀ a : BitVec 13, HonouredWrite s n st
        ((Config.mapperVariant n).writeCHR s.cart st (0#3 ++ a) b) b (exec (.pbPatW a b) s)

/-- R85, R122, R117 (I1) (the spec's decisions D20 and D33; a variant as the record of log 8): in a session of a variant other
than the fixed one, DMA from a page of 0x80 or above faults where the page's 256 bytes pass the end of the PRG buffer or of the
bank they start in, and else copies them into OAM from the cursor on, modulo 256, and changes nothing else. -/
def Obligations.VariantDmaFollowsThePageView : Prop :=
  ∀ (s : State) (n : Nat) (st : VariantState) (page : Byte), s.Alive → s.mapper = .variant n st → 0x80 ≤ page.toNat →
    let a : Addr := page ++ 0#8
    let offset := (Config.mapperVariant n).prgOffset s.cart st a
    if s.cart.prg.size < offset + 256 ∨ (Config.mapperVariant n).bankEnd s.cart st a < offset + 256 then
      exec (.oamdmaW page) s = .fault .mapperOutOfBounds
    else
      ∃ O : ByteMemory, exec (.oamdmaW page) s = .next { s with ppu := { s.ppu with oam := O }, result := .nothing }
        ∧ ∀ k : Byte, Memory.read O ((s.ppu.oamAddr.toNat + k.toNat) % 256)
            = Memory.read s.cart.prg.cells (offset + k.toNat)

/-- R130, R125, R8 (the spec's decision D33): the page view of a fixed-mapping session is the 256 bytes from the resolved offset,
and faults exactly when they pass the end of the PRG buffer, or of the first of two banks. That a parameter says whether the end
of the first of two banks counts, for the readings of D33 and of R130's pseudocode, is the model's choice (log 17). -/
def Obligations.PageViewIsBoundsChecked : Prop :=
  ∀ (s : State) (a : Addr) (one : Bool) (ram : Option ByteMemory),
    s.FixedSession → s.mapper = .fixed one ram → 0x8000 ≤ a.toNat →
    let offset := if one then (a.toNat - 0x8000) % 0x4000 else a.toNat - 0x8000
    let limit := if s.par.pageViewEnd = .bank ∧ offset < 0x4000 then 0x4000 else s.cart.prg.size
    (limit < offset + 256 → getPagePtr s a = .error .mapperOutOfBounds)
      ∧ (offset + 256 ≤ limit →
        ∃ view, getPagePtr s a = .ok view ∧ ∀ k : Byte, view k = Memory.read s.cart.prg.cells (offset + k.toNat))

end MapperAndBus

section Controllers

/-- R137, R138, R140: the button writes set their bitmap alone; one strobe write reaches both controllers and latches a
controller exactly at its 1-to-0 transition. -/
def Obligations.StrobeLatchesAtTheTransition : Prop :=
  ∀ (b : Byte) (s : State), s.Alive →
    exec (.buttons1 b) s = .next { s with ctrl1 := { s.ctrl1 with buttons := b }, result := .nothing }
      ∧ exec (.buttons2 b) s = .next { s with ctrl2 := { s.ctrl2 with buttons := b }, result := .nothing }
      ∧ ∃ c d : Controller, exec (.ctrlStrobeW b) s = .next { s with ctrl1 := c, ctrl2 := d, result := .nothing }
        ∧ c.buttons = s.ctrl1.buttons ∧ d.buttons = s.ctrl2.buttons
        ∧ (c.isStrobe = true ↔ b.toNat % 2 = 1) ∧ (d.isStrobe = true ↔ b.toNat % 2 = 1)
        ∧ (s.ctrl1.isStrobe = true ∧ b.toNat % 2 = 0 → c.bits = s.ctrl1.buttons)
        ∧ (¬(s.ctrl1.isStrobe = true ∧ b.toNat % 2 = 0) → c.bits = s.ctrl1.bits)
        ∧ (s.ctrl2.isStrobe = true ∧ b.toNat % 2 = 0 → d.bits = s.ctrl2.buttons)
        ∧ (¬(s.ctrl2.isStrobe = true ∧ b.toNat % 2 = 0) → d.bits = s.ctrl2.bits)

/-- R139: a controller read gives bit 0 of the buttons while strobing and re-latches, else bit 0 of the shift register,
which shifts right and takes in a 1; the upper seven bits are 0. -/
def Obligations.ControllerReadShiftsOneBit : Prop :=
  ∀ s : State, s.Alive →
    (s.ctrl1.isStrobe = true → exec .ctrl1R s = .next { s with
        ctrl1 := { s.ctrl1 with bits := s.ctrl1.buttons }, result := .byte (BitVec.ofNat 8 (s.ctrl1.buttons.toNat % 2)) })
      ∧ (s.ctrl1.isStrobe = false → ∃ r : Byte, exec .ctrl1R s = .next { s with
          ctrl1 := { s.ctrl1 with bits := r }, result := .byte (BitVec.ofNat 8 (s.ctrl1.bits.toNat % 2)) }
        ∧ r.toNat = s.ctrl1.bits.toNat / 2 + 128)
      ∧ (s.ctrl2.isStrobe = true → exec .ctrl2R s = .next { s with
        ctrl2 := { s.ctrl2 with bits := s.ctrl2.buttons }, result := .byte (BitVec.ofNat 8 (s.ctrl2.buttons.toNat % 2)) })
      ∧ (s.ctrl2.isStrobe = false → ∃ r : Byte, exec .ctrl2R s = .next { s with
          ctrl2 := { s.ctrl2 with bits := r }, result := .byte (BitVec.ofNat 8 (s.ctrl2.bits.toNat % 2)) }
        ∧ r.toNat = s.ctrl2.bits.toNat / 2 + 128)

/-- R141, and the spec's decisions D37 (bits 7..1 of a read are 0) and D39 (one strobe write reaches both controllers):
while the strobe is held, each read of controller 1 gives bit 0 of its buttons; after the release, the reads
give the eight button bits from low to high, and 1 from the ninth read on, and the same of controller 2; a `cycle()`
clears nothing of either controller. -/
def Obligations.ReadsAfterTheLatchGiveTheButtons : Prop :=
  ∀ (s : State) (b : Byte) (k : Nat), s.Alive →
    (s.ctrl1.isStrobe = true → ∃ t u, repeated .ctrl1R k s = .next t ∧ exec .ctrl1R t = .next u
        ∧ u.result = .byte (BitVec.ofNat 8 (s.ctrl1.buttons.toNat % 2)))
      ∧ (s.ctrl2.isStrobe = true → ∃ t u, repeated .ctrl2R k s = .next t ∧ exec .ctrl2R t = .next u
        ∧ u.result = .byte (BitVec.ofNat 8 (s.ctrl2.buttons.toNat % 2)))
      ∧ (s.ctrl1.isStrobe = true → b.toNat % 2 = 0 → ∃ r t u, exec (.ctrlStrobeW b) s = .next r
        ∧ repeated .ctrl1R k r = .next t ∧ exec .ctrl1R t = .next u
        ∧ u.result = .byte (BitVec.ofNat 8 (if k < 8 then s.ctrl1.buttons.toNat / 2 ^ k % 2 else 1)))
      ∧ (s.ctrl2.isStrobe = true → b.toNat % 2 = 0 → ∃ r t u, exec (.ctrlStrobeW b) s = .next r
        ∧ repeated .ctrl2R k r = .next t ∧ exec .ctrl2R t = .next u
        ∧ u.result = .byte (BitVec.ofNat 8 (if k < 8 then s.ctrl2.buttons.toNat / 2 ^ k % 2 else 1)))
      ∧ (∀ t, exec .cycle s = .next t → t.ctrl1 = s.ctrl1 ∧ t.ctrl2 = s.ctrl2)

end Controllers

section HostCalls

/-- R159 (decisions D23, D24): a reset sets every PPU scalar, takes the mask from `P_RESET_MASK`, keeps OAM, the read
buffer and the frame buffer, and changes nothing outside the PPU. -/
def Obligations.ResetSetsTheScalarsOnly : Prop :=
  ∀ s : State, s.Alive →
    exec .reset s = .next { s with
      ppu := {
        phase := .preRender, scanline := 0#9, dot := 0#9, evenFrame := true, v := 0#15, t := 0#15, fineX := 0#3,
        firstWrite := true, generateInterrupt := false, longSprites := false, bgPage := 0#1, sprPage := 0#1,
        increment := .by1, greyscale := s.par.resetMask.getLsbD 0, showBackground := s.par.resetMask.getLsbD 3,
        showSprites := s.par.resetMask.getLsbD 4, hideEdgeBackground := !s.par.resetMask.getLsbD 1,
        hideEdgeSprites := !s.par.resetMask.getLsbD 2, vblank := false, sprZeroHit := false, oam := s.ppu.oam,
        oamAddr := 0#8, lineSprites := [], readBuffer := s.ppu.readBuffer, fb := s.ppu.fb }
      result := .nothing }

/-- R156, R143: a readout inside the picture gives the entry and changes nothing; outside it, it is refused with
`NoSuchPixel`, and changes the mark alone. -/
def Obligations.FrameBufferReadout : Prop :=
  ∀ (x y : Nat) (s : State), s.Alive →
    (x ≤ 255 ∧ y ≤ 239 → exec (.fbread x y) s = .next { s with result := .color (fbRead s.ppu.fb x y) })
      ∧ (255 < x ∨ 239 < y → exec (.fbread x y) s = .next (refusedState s .noSuchPixel))

/-- R116, R124, R7: which cartridges the construction of the mapper accepts, with which refusal, and with which state; where
`P_MAPPER_VARIANTS` is not given, its default refuses every number but 0; and a refusal leaves no session. A variant's
first state is the one its `init` supplies, bank state and CHR RAM contents (R34, R117 b); that this state has that form is the
model's choice (log 8). -/
def Obligations.ConstructionOfTheMapper : Prop :=
  ∀ (cart : Cart) (par : Params) (init : Init),
    (cart.mapperNumber = 0 → cart.prg.size ≠ 16384 → cart.prg.size ≠ 32768 →
        constructMapper cart par init = .error .unsupportedPrgSize)
      ∧ (cart.mapperNumber = 0 → cart.prg.size = 16384 ∨ cart.prg.size = 32768 →
        (cart.chrIsRam = true → par.chrRamFixed = .refuse →
            constructMapper cart par init = .error .unsupportedChrRam)
          ∧ (cart.chrIsRam = true → par.chrRamFixed = .ram8k →
            constructMapper cart par init
              = .ok (.fixed (decide (cart.prg.size = 16384)) (some init.chrRam)))
          ∧ (cart.chrIsRam = false → cart.chr.size ≠ 8192 →
            constructMapper cart par init = .error .unsupportedChrSize)
          ∧ (cart.chrIsRam = false → cart.chr.size = 8192 →
            constructMapper cart par init = .ok (.fixed (decide (cart.prg.size = 16384)) none)))
      ∧ (cart.mapperNumber ≠ 0 → cart.mapperNumber ∉ par.mapperNumbers →
        constructMapper cart par init = .error .unsupportedMapper)
      ∧ (cart.mapperNumber ≠ 0 → ∀ colors,
        constructMapper cart (Params.defaults colors) init = .error .unsupportedMapper)
      ∧ (cart.mapperNumber ≠ 0 → cart.mapperNumber ∈ par.mapperNumbers →
        match (Config.mapperVariant cart.mapperNumber).init cart (Memory.read init.chrRam) with
        | .error r => constructMapper cart par init = .error r
        | .ok v => ∃ ram, constructMapper cart par init = .ok (.variant cart.mapperNumber { banks := v.banks, chrRam := ram })
          ∧ ∀ k, k < 8192 → Memory.read ram k = v.chrRam k)
      ∧ (∀ r, constructMapper cart par init = .error r → construct cart par init = .error r)

/-- R158: a session that construction gives meets the invariant, whatever the initial contents, keeps its cartridge and
parameters, and has the PPU of a reset; the cartridge, parameters and contents of logs 3 to 5 give `State.reset`. -/
def Obligations.ConstructionMeetsTheInvariant : Prop :=
  (∀ (cart : Cart) (par : Params) (init : Init) (s : State), construct cart par init = .ok s →
      Memory.wf 256 init.oam → (∀ y : Fin 240, Memory.wf 256 init.fb[y]) → Memory.wf 2048 init.ntRam →
      Memory.wf 32 init.palette → Memory.wf 8192 init.chrRam → Memory.wf cart.prg.size cart.prg.cells →
      Memory.wf cart.chr.size cart.chr.cells →
      s.Inv ∧ s.Successful ∧ s.cart = cart ∧ s.par = par ∧ s.ppu = resetPpu par s.ppu
        ∧ s.ppu.oam = init.oam ∧ s.ppu.readBuffer = init.readBuffer ∧ s.ppu.fb = init.fb
        ∧ s.pb = { ntRam := init.ntRam, palette := init.palette })
    ∧ construct Cart.c16 (Params.defaults Config.colorTable) Init.zero = .ok State.reset

end HostCalls

section Cycle

/-- R87: in a live fixed-mapping session every `cycle()` completes, at every position, and writes none of the port
registers, OAM, the read buffer, the PictureBus memories, the mapper, the controllers or the other records. -/
def Obligations.CycleAlwaysCompletes : Prop :=
  ∀ s : State, s.Alive → s.FixedSession →
    ∃ (p : Ppu) (n : Nat) (r : OpResult),
      exec .cycle s = .next { s with ppu := p, out := { s.out with nmiCount := n }, result := r }
        ∧ (n = s.out.nmiCount ∧ r = .nothing ∨ n = s.out.nmiCount + 1 ∧ r = .interrupt)
        ∧ p.t = s.ppu.t ∧ p.fineX = s.ppu.fineX ∧ p.firstWrite = s.ppu.firstWrite
        ∧ p.generateInterrupt = s.ppu.generateInterrupt ∧ p.longSprites = s.ppu.longSprites
        ∧ p.bgPage = s.ppu.bgPage ∧ p.sprPage = s.ppu.sprPage ∧ p.increment = s.ppu.increment
        ∧ p.greyscale = s.ppu.greyscale ∧ p.showBackground = s.ppu.showBackground
        ∧ p.showSprites = s.ppu.showSprites ∧ p.hideEdgeBackground = s.ppu.hideEdgeBackground
        ∧ p.hideEdgeSprites = s.ppu.hideEdgeSprites ∧ p.oam = s.ppu.oam ∧ p.oamAddr = s.ppu.oamAddr
        ∧ p.readBuffer = s.ppu.readBuffer

/-- R90, R91, R92, R93, R108: a PreRender dot, whole: the flags clear at dot 1, the horizontal copy at dot 258, the vertical
copy at dots 281 to 304, the line end at dot 340, or at dot 339 of an odd frame with rendering enabled. The dot after a line end
is the spec's decision D3 (both readings), "rendering enabled" D4 (both), the copies' masks D13. -/
def Obligations.PreRenderDotActions : Prop :=
  ∀ s : State, s.Alive → s.ppu.phase = .preRender →
    let ends : Prop := s.ppu.dot = 340#9 ∨ (s.ppu.dot = 339#9 ∧ s.ppu.evenFrame = false ∧ s.RenderingOn)
    ∃ v' : BitVec 15,
      (s.ppu.dot = 258#9 ∧ s.RenderingOn → v' = copyH s.ppu.v s.ppu.t)
        ∧ (281 ≤ s.ppu.dot.toNat ∧ s.ppu.dot.toNat ≤ 304 ∧ s.RenderingOn → v' = copyV s.ppu.v s.ppu.t)
        ∧ (¬(s.RenderingOn ∧ (s.ppu.dot = 258#9 ∨ 281 ≤ s.ppu.dot.toNat ∧ s.ppu.dot.toNat ≤ 304)) → v' = s.ppu.v)
        ∧ (ends → exec .cycle s = .next { s with
            ppu := { s.ppu with phase := .render, scanline := 0#9, dot := lineStart s.par, v := v' }
            result := .nothing })
        ∧ (¬ends → s.ppu.dot = 1#9 → exec .cycle s = .next { s with
            ppu := { s.ppu with dot := 2#9, v := v', vblank := false, sprZeroHit := false }, result := .nothing })
        ∧ (¬ends → s.ppu.dot ≠ 1#9 → exec .cycle s = .next { s with
            ppu := { s.ppu with dot := s.ppu.dot + 1#9, v := v' }, result := .nothing })

/-- R94, R109, R112, R113: a visible dot of a live fixed-mapping session: the colour stored is that of the selected
palette index, in the entry of the dot's column and row alone; the hit is set where sprite 0 decides the column over an
opaque background; and the coarse-X step is made where it is due. -/
def Obligations.VisibleDotDrawsOnePixel : Prop :=
  ∀ s : State, s.Alive → s.FixedSession → s.ppu.phase = .render → 1 ≤ s.ppu.dot.toNat → s.ppu.dot.toNat ≤ 256 →
    s.ppu.scanline.toNat ≤ 239 →
    let x := s.ppu.dot.toNat - 1
    let y := s.ppu.scanline.toNat
    ∃ (bg : Pixel) (scan : Option (Fin 64 × Pixel)) (v' : BitVec 15) (hit : Bool) (F : FrameBuffer) (idx : Nat),
      background s x = .ok bg ∧ sprites s x y = .ok scan
        ∧ exec .cycle s = .next { s with
            ppu := { s.ppu with dot := s.ppu.dot + 1#9, v := v', sprZeroHit := hit, fb := F }, result := .nothing }
        ∧ (s.ppu.showBackground = true ∧ (s.ppu.fineX.toNat + x) % 8 = 7 → v' = incCoarseX s.ppu.v)
        ∧ (¬(s.ppu.showBackground = true ∧ (s.ppu.fineX.toNat + x) % 8 = 7) → v' = s.ppu.v)
        ∧ (hit = true ↔ s.ppu.sprZeroHit = true
            ∨ (bg.isOpaque = true ∧ s.ppu.showBackground = true ∧ ∃ px, scan = some (0, px)))
        ∧ (∀ i px, scan = some (i, px) → (bg.isOpaque = false ∨ px.front = true) → idx = px.idx.toNat)
        ∧ (bg.isOpaque = true → (scan = none ∨ ∃ i px, scan = some (i, px) ∧ px.front = false) → idx = bg.idx.toNat)
        ∧ (bg.isOpaque = false → scan = none → idx = 0)
        ∧ fbRead F x y = s.par.colorTable.toList.getD
            ((Memory.read s.pb.palette (paletteSlot s.par.paletteAlias idx)).toNat % 64) 0#32
        ∧ ∀ x' y', ¬(x' = x ∧ y' = y) → fbRead F x' y' = fbRead s.ppu.fb x' y'

/-- R95, R96, R97, R108: a Render dot that draws nothing, whole: the vertical increment at dot 257, the horizontal copy at
dot 258, and at dot 340 the evaluation for the next line and the end of the line. The dot after a line end is the spec's
decision D3 (both readings), "rendering enabled" D4 (both), the copy's mask D13, the evaluation whatever the mask D43. -/
def Obligations.BlankingDotsOfARenderLine : Prop :=
  ∀ s : State, s.Alive → s.ppu.phase = .render → (s.ppu.dot = 0#9 ∨ 257 ≤ s.ppu.dot.toNat) →
    (s.ppu.dot = 257#9 → exec .cycle s = .next { s with
        ppu := { s.ppu with dot := 258#9, v := if s.ppu.showBackground then incY s.ppu.v else s.ppu.v }
        result := .nothing })
      ∧ (s.ppu.dot = 258#9 → ∃ v', exec .cycle s = .next { s with
          ppu := { s.ppu with dot := 259#9, v := v' }, result := .nothing }
        ∧ (s.RenderingOn → v' = copyH s.ppu.v s.ppu.t) ∧ (¬s.RenderingOn → v' = s.ppu.v))
      ∧ (s.ppu.dot = 340#9 → exec .cycle s = .next { s with
          ppu := { s.ppu with
            phase := if s.ppu.scanline = 239#9 then .postRender else .render
            scanline := s.ppu.scanline + 1#9
            dot := lineStart s.par
            lineSprites := evaluateSprites s.ppu s.ppu.scanline.toNat }
          result := .nothing })
      ∧ (s.ppu.dot ≠ 257#9 → s.ppu.dot ≠ 258#9 → s.ppu.dot ≠ 340#9 → exec .cycle s = .next { s with
          ppu := { s.ppu with dot := s.ppu.dot + 1#9 }, result := .nothing })

/-- R102, R103, R104, R108: a PostRender or VerticalBlank dot, whole: idle but for the start of vertical blank at dot 1 of
scanline 241, with its signal, and the ends of lines, the last of which flips `evenFrame`. The
interrupt event is the counter's step (the spec's decision D40); the dot after a line end is decision D3 (both readings). -/
def Obligations.PostRenderAndVblankDots : Prop :=
  ∀ s : State, s.Alive →
    (s.ppu.phase = .postRender →
      (s.ppu.dot = 340#9 → exec .cycle s = .next { s with
          ppu := { s.ppu with phase := .verticalBlank, scanline := s.ppu.scanline + 1#9, dot := lineStart s.par }
          result := .nothing })
        ∧ (s.ppu.dot ≠ 340#9 → exec .cycle s = .next { s with
          ppu := { s.ppu with dot := s.ppu.dot + 1#9 }, result := .nothing }))
    ∧ (s.ppu.phase = .verticalBlank →
      (s.ppu.scanline = 241#9 → s.ppu.dot = 1#9 → s.ppu.generateInterrupt = true → exec .cycle s = .next { s with
          ppu := { s.ppu with dot := 2#9, vblank := true }
          out := { s.out with nmiCount := s.out.nmiCount + 1 }
          result := .interrupt })
        ∧ (s.ppu.scanline = 241#9 → s.ppu.dot = 1#9 → s.ppu.generateInterrupt = false → exec .cycle s = .next { s with
          ppu := { s.ppu with dot := 2#9, vblank := true }, result := .nothing })
        ∧ (s.ppu.dot = 340#9 → s.ppu.scanline = 260#9 → exec .cycle s = .next { s with
          ppu := { s.ppu with
            phase := .preRender, scanline := 0#9, dot := lineStart s.par, evenFrame := !s.ppu.evenFrame }
          result := .nothing })
        ∧ (s.ppu.dot = 340#9 → s.ppu.scanline ≠ 260#9 → exec .cycle s = .next { s with
          ppu := { s.ppu with scanline := s.ppu.scanline + 1#9, dot := lineStart s.par }, result := .nothing })
        ∧ (s.ppu.dot ≠ 340#9 → ¬(s.ppu.scanline = 241#9 ∧ s.ppu.dot = 1#9) → exec .cycle s = .next { s with
          ppu := { s.ppu with dot := s.ppu.dot + 1#9 }, result := .nothing }))

/-- R98, R100, R101, by the fields of R61 (the spec's decisions D13 and D16): the coarse-X step counts modulo 32, flips
the horizontal nametable bit exactly at the wrap, and changes no other bit; the horizontal copy moves coarse X and bit 10,
the vertical copy fine Y, bit 11 and coarse Y, and each leaves the other's bits. -/
def Obligations.ScrollStepsByFields : Prop :=
  ∀ v t : BitVec 15,
    (((incCoarseX v).extractLsb' 0 5).toNat = ((v.extractLsb' 0 5).toNat + 1) % 32
        ∧ (incCoarseX v).getLsbD 10 = (v.getLsbD 10 ^^ decide ((v.extractLsb' 0 5).toNat = 31))
        ∧ (incCoarseX v).extractLsb' 5 5 = v.extractLsb' 5 5
        ∧ (incCoarseX v).extractLsb' 11 4 = v.extractLsb' 11 4)
      ∧ ((copyH v t).extractLsb' 0 5 = t.extractLsb' 0 5 ∧ (copyH v t).getLsbD 10 = t.getLsbD 10
        ∧ (copyH v t).extractLsb' 5 5 = v.extractLsb' 5 5 ∧ (copyH v t).extractLsb' 11 4 = v.extractLsb' 11 4)
      ∧ ((copyV v t).extractLsb' 5 5 = t.extractLsb' 5 5 ∧ (copyV v t).extractLsb' 11 4 = t.extractLsb' 11 4
        ∧ (copyV v t).extractLsb' 0 5 = v.extractLsb' 0 5 ∧ (copyV v t).getLsbD 10 = v.getLsbD 10)

/-- R99: the vertical increment by fields (R61): fine Y counts modulo 8 and carries into coarse Y, which wraps from 29
with a flip of the vertical nametable bit and from 31 without one; no other bit changes. -/
def Obligations.VerticalIncrementByFields : Prop :=
  ∀ v : BitVec 15,
    let fine := (v.extractLsb' 12 3).toNat
    let coarse := (v.extractLsb' 5 5).toNat
    ((incY v).extractLsb' 12 3).toNat = (fine + 1) % 8
      ∧ ((incY v).extractLsb' 5 5).toNat
          = (if fine = 7 then (if coarse = 29 ∨ coarse = 31 then 0 else coarse + 1) else coarse)
      ∧ (incY v).getLsbD 11 = (v.getLsbD 11 ^^ decide (fine = 7 ∧ coarse = 29))
      ∧ (incY v).getLsbD 10 = v.getLsbD 10
      ∧ (incY v).extractLsb' 0 5 = v.extractLsb' 0 5

/-- R110, R63, R64: the background pixel of a live fixed-mapping session: hidden, it is index 0 and not opaque; else it is
made of the tile at `v`, the two plane bits at the fine position, and the attribute bits of the tile's quadrant, whose
address and shift are given here by the fields of `v` (R61). -/
def Obligations.BackgroundPixelByFields : Prop :=
  ∀ (s : State) (x : Nat), s.FixedSession →
    (s.ppu.showBackground = false ∨ (s.ppu.hideEdgeBackground = true ∧ x < 8) →
      background s x = .ok { idx := 0#5, isOpaque := false, front := false })
    ∧ (s.ppu.showBackground = true → (s.ppu.hideEdgeBackground = false ∨ 8 ≤ x) →
      let v := s.ppu.v.toNat
      let column := (s.ppu.fineX.toNat + x) % 8
      let shift := 4 * (v / 64 % 2) + 2 * (v / 2 % 2)
      ∃ (ta pa aa : Addr) (tile p0 p1 at' : Byte) (bg : Pixel),
        ta.toNat = 0x2000 + v % 0x1000 ∧ pbRead s ta = .ok tile
          ∧ pa.toNat = 0x1000 * s.ppu.bgPage.toNat + 16 * tile.toNat + v / 0x1000
          ∧ pbRead s pa = .ok p0 ∧ pbRead s (pa + 8#16) = .ok p1
          ∧ aa.toNat = 0x23C0 + 0x400 * (v / 0x400 % 4) + 8 * (v / 0x20 % 32 / 4) + v % 32 / 4
          ∧ pbRead s aa = .ok at'
          ∧ background s x = .ok bg
          ∧ bg.idx.toNat = 4 * (at'.toNat / 2 ^ shift % 4)
              + (2 * (p1.toNat / 2 ^ (7 - column) % 2) + p0.toNat / 2 ^ (7 - column) % 2)
          ∧ (bg.isOpaque = true ↔ bg.idx.toNat % 4 ≠ 0))

/-- R111: the sprite scan of a live fixed-mapping session: nothing where sprites are hidden; else the result is that of
the first sprite of the list that covers the column and, under `firstOpaque`, is opaque there. -/
def Obligations.SpriteScanTakesTheFirst : Prop :=
  ∀ (s : State) (x y : Nat), s.FixedSession →
    (s.ppu.showSprites = false ∨ (s.ppu.hideEdgeSprites = true ∧ x < 8) → sprites s x y = .ok none)
    ∧ (s.ppu.showSprites = true → (s.ppu.hideEdgeSprites = false ∨ 8 ≤ x) →
      ∃ pat : Fin 64 → BitVec 2,
        (∀ i, spritePattern s (spriteEntry s.ppu.oam i) x y = .ok (pat i))
          ∧ sprites s x y = .ok (
              match s.ppu.lineSprites.find? (fun i =>
                let sx := (Memory.read s.ppu.oam (4 * i.val + 3)).toNat
                decide (sx ≤ x ∧ x < sx + 8) && (decide (s.par.spriteStop = .firstCovering) || decide (pat i ≠ 0#2))) with
              | none => none
              | some i =>
                if pat i = 0#2 then none
                else
                  let attr := Memory.read s.ppu.oam (4 * i.val + 2)
                  some (i, { idx := BitVec.ofNat 5 (16 + 4 * (attr.toNat % 4) + (pat i).toNat)
                             isOpaque := true
                             front := !attr.getLsbD 5 })))

/-- R111, R63 (decision D6): the pattern row of a sprite, for every sprite entry and every line, stale ones included: the
row is the Euclidean remainder, flipped by bit 7; the plane-0 address is that of the mode; both planes lie in the pattern
tables; and in a fixed-mapping session, at every column the sprite covers, the pattern value is made of the bytes read at
that address and eight above it, at the bit of the column, flipped by bit 6. -/
def Obligations.SpritePatternAddresses : Prop :=
  ∀ (p : Ppu) (e : SpriteEntry) (y : Nat),
    let h := if p.longSprites then 16 else 8
    let unflipped := (y + 256 - (e.y.toNat + 1) % 256) % h
    let row := if e.attr.getLsbD 7 then h - 1 - unflipped else unflipped
    let pa := spritePatternAddr p e (flippedRow e (spriteHeight p.longSprites) (spriteRow e (spriteHeight p.longSprites) y))
    row < h
      ∧ (p.longSprites = false → pa.toNat = 0x1000 * p.sprPage.toNat + 16 * e.tile.toNat + row)
      ∧ (p.longSprites = true →
          pa.toNat = 0x1000 * (e.tile.toNat % 2) + 32 * (e.tile.toNat / 2) + row % 8 + (if row < 8 then 0 else 16))
      ∧ pa.toNat + 8 < 0x2000
      ∧ ∀ (s : State) (x : Nat), s.FixedSession → s.ppu = p → e.x.toNat ≤ x → x < e.x.toNat + 8 →
        let bit := if e.attr.getLsbD 6 then x - e.x.toNat else 7 - (x - e.x.toNat)
        ∃ (p0 p1 : Byte) (value : BitVec 2),
          pbRead s pa = .ok p0 ∧ pbRead s (pa + 8#16) = .ok p1 ∧ spritePattern s e x y = .ok value
            ∧ value.toNat = 2 * (p1.toNat / 2 ^ bit % 2) + p0.toNat / 2 ^ bit % 2

/-- R114: the evaluation selects a sprite exactly when it is at or after the cursor's sprite, its rows place it on the next
line, and fewer than eight such sprites come before it; the list is in increasing order, at most eight long. -/
def Obligations.EvaluationSelectsTheFirstEight : Prop :=
  ∀ (p : Ppu) (line : Nat),
    let selects := fun i : Fin 64 =>
      decide (p.oamAddr.toNat / 4 ≤ i.val
        ∧ 0 ≤ (line : Int) - ((Memory.read p.oam (4 * i.val)).toNat : Int)
        ∧ (line : Int) - ((Memory.read p.oam (4 * i.val)).toNat : Int) < (if p.longSprites then 16 else 8))
    (evaluateSprites p line).length ≤ 8
      ∧ (evaluateSprites p line).Pairwise (· < ·)
      ∧ ∀ i : Fin 64, i ∈ evaluateSprites p line ↔
          selects i = true ∧ ((List.finRange 64).filter (fun j => selects j && decide (j < i))).length < 8

/-- R106, R108 (the spec's decision D3, with both of its readings): numbering the dots of a frame, each `cycle()` moves on
by one modulo 262 lines, but that the skip of R93 goes from dot 339 of the pre-render line to the first dot of line 0.
Dot 0 under `dot1`, which only a reset leaves, is aside. -/
def Obligations.EachCycleIsOneDot : Prop :=
  ∀ s t : State, s.ppu.PositionOk → (lineStart s.par).toNat ≤ s.ppu.dot.toNat → exec .cycle s = .next t →
    (s.ppu.phase = .preRender ∧ s.ppu.dot = 339#9 ∧ s.ppu.evenFrame = false ∧ s.RenderingOn →
        dotOrdinal s.par t.ppu = lineCalls s.par)
      ∧ (¬(s.ppu.phase = .preRender ∧ s.ppu.dot = 339#9 ∧ s.ppu.evenFrame = false ∧ s.RenderingOn) →
        dotOrdinal s.par t.ppu = (dotOrdinal s.par s.ppu + 1) % (lineCalls s.par * 262))
      ∧ (lineStart s.par).toNat ≤ t.ppu.dot.toNat

/-- R105 (the spec's decision D3, with both of its readings): the frame-timing invariant, from the first dot of a
pre-render line of any live fixed-mapping session: the frame is 262 whole lines long, one call less on an odd frame with
rendering enabled; no earlier call returns to the first dot; `evenFrame` flips; and the interrupt signal is emitted once
if it is enabled, else not at all. The first frame after a reset under `dot1`, which starts at dot 0, is aside. -/
def Obligations.FrameLength : Prop :=
  ∀ (s : State) (n : Nat), s.Alive → s.FixedSession →
    s.ppu.phase = .preRender → s.ppu.scanline = 0#9 → s.ppu.dot = lineStart s.par →
    (s.ppu.evenFrame = false ∧ s.RenderingOn → n = lineCalls s.par * 262 - 1) →
    (¬(s.ppu.evenFrame = false ∧ s.RenderingOn) → n = lineCalls s.par * 262) →
    (∃ t, repeated .cycle n s = .next t
        ∧ t.ppu.phase = .preRender ∧ t.ppu.scanline = 0#9 ∧ t.ppu.dot = lineStart s.par
        ∧ t.ppu.evenFrame = !s.ppu.evenFrame
        ∧ t.out.nmiCount = s.out.nmiCount + (if s.ppu.generateInterrupt then 1 else 0))
      ∧ ∀ k u, 0 < k → k < n → repeated .cycle k s = .next u →
        ¬(u.ppu.phase = .preRender ∧ u.ppu.dot = lineStart s.par)

end Cycle
end

