-- ==== Sys2Proof/Laws/Memory.lean ====
section
/-! SUPPORT. The laws of the sparse memories: a read after a write, what a write leaves alone, and that every operation
keeps the canonical form. They hold for every list, canonical or not, but for the preservation laws. -/

namespace Sys2Proof

section Reads
variable {w : Nat} (m : Memory w) (a k : Nat) (b : BitVec w)

theorem Memory.read_insert_same : Memory.read (Memory.insert m a b) a = b := by
  induction m with
  | nil => simp [Memory.insert, Memory.read]
  | cons p m ih =>
    unfold Memory.insert
    split
    · simp [Memory.read]
    · split
      · simp [Memory.read]
      · rename_i h1 h2
        simp [Memory.read, Ne.symm h2, ih]

theorem Memory.read_insert_other (h : k ≠ a) : Memory.read (Memory.insert m a b) k = Memory.read m k := by
  induction m with
  | nil => simp [Memory.insert, Memory.read, h.symm]
  | cons p m ih =>
    unfold Memory.insert
    split
    · simp [Memory.read, h.symm]
    · split
      · rename_i h1 h2
        simp [Memory.read, ← h2, h.symm]
      · simp [Memory.read, ih]

theorem Memory.read_erase_same : Memory.read (Memory.erase m a) a = 0#w := by
  induction m with
  | nil => rfl
  | cons p m ih =>
    unfold Memory.erase
    split
    · exact ih
    · rename_i h
      simp [Memory.read, h, ih]

theorem Memory.read_erase_other (h : k ≠ a) : Memory.read (Memory.erase m a) k = Memory.read m k := by
  induction m with
  | nil => rfl
  | cons p m ih =>
    unfold Memory.erase
    split
    · rename_i hp
      simp [Memory.read, hp, h.symm, ih]
    · simp [Memory.read, ih]

/-- A read after a write to the same address gives the value written. -/
@[simp] theorem Memory.read_write_same : Memory.read (Memory.write m a b) a = b := by
  unfold Memory.write
  split
  · rename_i h
    rw [h, Memory.read_erase_same]
  · exact Memory.read_insert_same m a b

/-- A write leaves every other address alone. -/
theorem Memory.read_write_other (h : k ≠ a) : Memory.read (Memory.write m a b) k = Memory.read m k := by
  unfold Memory.write
  split
  · exact Memory.read_erase_other m a k h
  · exact Memory.read_insert_other m a k b h

end Reads

/-- Entry `i` of a memory made from `f`. -/
theorem Memory.read_filterMap_range {w : Nat} (f : Nat → BitVec w) (l : List Nat) (i : Nat) :
    Memory.read (l.filterMap fun j => if f j = 0#w then none else some (j, f j)) i = if i ∈ l then f i else 0#w := by
  induction l with
  | nil => simp [Memory.read]
  | cons j l ih =>
    rw [List.filterMap_cons]
    by_cases hj : f j = 0#w
    · simp only [hj, if_true]
      rw [ih]
      by_cases hij : i = j
      · subst hij; simp [hj]
      · simp [hij]
    · simp only [hj, if_false, Memory.read]
      by_cases hij : j = i
      · subst hij; simp
      · simp [hij, Ne.symm hij, ih]

theorem Memory.read_ofFn {w : Nat} (n : Nat) (f : Nat → BitVec w) (i : Nat) (h : i < n) :
    Memory.read (Memory.ofFn n f) i = f i := by
  unfold Memory.ofFn
  rw [Memory.read_filterMap_range, if_pos (List.mem_range.mpr h)]

section Canonical
variable {w : Nat} {n a : Nat} {m : Memory w} {b : BitVec w}

theorem Memory.mem_insert {p : Nat × BitVec w} (h : p ∈ Memory.insert m a b) : p = (a, b) ∨ p ∈ m := by
  induction m with
  | nil => simpa [Memory.insert] using h
  | cons q m ih =>
    unfold Memory.insert at h
    split at h
    · simpa using h
    · split at h
      · simp only [List.mem_cons] at h ⊢
        tauto
      · simp only [List.mem_cons] at h ⊢
        rcases h with h | h
        · tauto
        · rcases ih h with h | h <;> tauto

theorem Memory.mem_erase {p : Nat × BitVec w} (h : p ∈ Memory.erase m a) : p ∈ m := by
  induction m with
  | nil => simp [Memory.erase] at h
  | cons q m ih =>
    unfold Memory.erase at h
    split at h
    · exact List.mem_cons_of_mem _ (ih h)
    · simp only [List.mem_cons] at h ⊢
      rcases h with h | h
      · exact .inl h
      · exact .inr (ih h)

theorem Memory.wf_nil : Memory.wf n ([] : Memory w) := by simp [Memory.wf]

theorem Memory.wf_erase (h : Memory.wf n m) : Memory.wf n (Memory.erase m a) := by
  refine ⟨?_, fun p hp => h.2 p (Memory.mem_erase hp)⟩
  obtain ⟨h1, -⟩ := h
  induction m with
  | nil => simp [Memory.erase]
  | cons q m ih =>
    rw [List.pairwise_cons] at h1
    unfold Memory.erase
    split
    · exact ih h1.2
    · rw [List.pairwise_cons]
      exact ⟨fun p hp => h1.1 p (Memory.mem_erase hp), ih h1.2⟩

theorem Memory.wf_insert (h : Memory.wf n m) (ha : a < n) (hb : b ≠ 0#w) : Memory.wf n (Memory.insert m a b) := by
  refine ⟨?_, fun p hp => ?_⟩
  · obtain ⟨h1, -⟩ := h
    induction m with
    | nil => simp [Memory.insert]
    | cons q m ih =>
      rw [List.pairwise_cons] at h1
      unfold Memory.insert
      split
      · rename_i hlt
        rw [List.pairwise_cons, List.pairwise_cons]
        refine ⟨fun p hp => ?_, h1⟩
        rw [List.mem_cons] at hp
        rcases hp with rfl | hp
        · exact hlt
        · exact lt_trans hlt (h1.1 p hp)
      · split
        · rename_i heq
          rw [List.pairwise_cons]
          exact ⟨fun p hp => heq ▸ h1.1 p hp, h1.2⟩
        · rename_i h2 h3
          rw [List.pairwise_cons]
          refine ⟨fun p hp => ?_, ih h1.2⟩
          rcases Memory.mem_insert hp with rfl | hp
          · simp only; omega
          · exact h1.1 p hp
  · rcases Memory.mem_insert hp with rfl | hp
    · exact ⟨ha, hb⟩
    · exact h.2 p hp

/-- A write in range keeps the canonical form. -/
theorem Memory.wf_write (h : Memory.wf n m) (ha : a < n) : Memory.wf n (Memory.write m a b) := by
  unfold Memory.write
  split
  · exact Memory.wf_erase h
  · rename_i hb
    exact Memory.wf_insert h ha hb

/-- A memory made entry by entry is canonical. -/
theorem Memory.wf_ofFn (f : Nat → BitVec w) : Memory.wf n (Memory.ofFn n f) := by
  unfold Memory.ofFn
  constructor
  · refine List.Pairwise.filterMap _ ?_ (List.pairwise_lt_range (n := n))
    intro i j hij p hp q hq
    split at hp <;> split at hq <;> simp_all
    rw [← hp, ← hq]; exact hij
  · intro p hp
    rw [List.mem_filterMap] at hp
    obtain ⟨i, hi, hp⟩ := hp
    split at hp
    · simp at hp
    · rename_i h0
      simp only [Option.some.injEq] at hp
      rw [← hp]
      exact ⟨List.mem_range.mp hi, h0⟩

end Canonical

namespace Machine

section Frame
variable (fb : FrameBuffer) (x y : Nat) (c : Color)

/-- A read of the frame-buffer entry just written gives its colour (R31). -/
theorem fbRead_fbWrite_same (hy : y < 240) : fbRead (fbWrite fb x y c) x y = c := by
  simp [fbRead, fbWrite, hy]

/-- Every other frame-buffer entry stays (R31). -/
theorem fbRead_fbWrite_other (x' y' : Nat) (h : ¬(x' = x ∧ y' = y)) :
    fbRead (fbWrite fb x y c) x' y' = fbRead fb x' y' := by
  unfold fbRead fbWrite
  by_cases hy : y < 240
  · simp only [hy, dif_pos]
    by_cases hy' : y' < 240
    · simp only [hy', dif_pos]
      by_cases hyy : y' = y
      · subst hyy
        have hx : x' ≠ x := fun e => h ⟨e, rfl⟩
        simp [Memory.read_write_other _ _ _ _ hx]
      · rw [Vector.getElem_set_ne]
        exact fun e => hyy e.symm
    · simp [hy']
  · simp [hy]

/-- A write in a column of 0..255 keeps every row canonical. -/
theorem fbWrite_wf (hx : x < 256) (h : ∀ y : Fin 240, Memory.wf 256 fb[y]) (y' : Fin 240) :
    Memory.wf 256 (fbWrite fb x y c)[y'] := by
  unfold fbWrite
  split
  · rename_i hy
    by_cases e : y = y'.val
    · subst e
      simp only [Fin.getElem_fin, Vector.getElem_set_self]
      exact Memory.wf_write (h y') hx
    · simp only [Fin.getElem_fin, Vector.getElem_set_ne _ _ e]
      exact h y'
  · exact h y'

end Frame

end Machine

end Sys2Proof
end

