-- ==== Sys2Proof/Laws/Construct.lean ====
section
/-! SUPPORT. What construction does for a variant other than the fixed one (R34, R116, R117 b). -/

namespace Sys2Proof.Machine

@[simp] theorem firstVariantState_banks (v : VariantInit) : (firstVariantState v).banks = v.banks := rfl

theorem firstVariantState_chrRam (v : VariantInit) :
    (firstVariantState v).chrRam = Memory.ofFn chrRamSize v.chrRam := by
  simp only [firstVariantState]

/-- The CHR RAM of a new session holds what the variant supplied. -/
theorem firstVariantState_read (v : VariantInit) {k : Nat} (h : k < chrRamSize) :
    Memory.read (firstVariantState v).chrRam k = v.chrRam k := by
  rw [firstVariantState_chrRam, Memory.read_ofFn chrRamSize v.chrRam k h]

/-- The CHR RAM of a new session is in canonical form. -/
theorem firstVariantState_wf (v : VariantInit) : Memory.wf chrRamSize (firstVariantState v).chrRam := by
  rw [firstVariantState_chrRam]
  generalize chrRamSize = n
  exact Memory.wf_ofFn v.chrRam

theorem variantOf_mem {par : Params} {n : Nat} (h : n ∈ par.mapperNumbers) :
    variantOf par n = some (Config.mapperVariant n) := if_pos h

theorem variantOf_not_mem {par : Params} {n : Nat} (h : n ∉ par.mapperNumbers) : variantOf par n = none := if_neg h

end Sys2Proof.Machine
end

