-- ==== Sys2Proof/Laws/Encoding.lean ====
section
/-! SUPPORT. The fields of a transaction word and of a port address, read back from the word they are put into (R53,
R55). -/

namespace Sys2Proof

/-- The number that two joined fields make. -/
theorem toNat_append_eq {m n : Nat} (x : BitVec m) (y : BitVec n) :
    (x ++ y).toNat = x.toNat * 2 ^ n + y.toNat := by
  rw [BitVec.toNat_append, ← Nat.shiftLeft_add_eq_or_of_lt y.isLt, Nat.shiftLeft_eq]

section Fields
variable (s : BitVec 2) (p w : BitVec 1) (a : Addr)

@[simp] theorem twSpace_twOf : twSpace (twOf s p w a) = s := by
  apply BitVec.eq_of_toNat_eq
  simp only [twSpace, twOf, BitVec.extractLsb'_toNat, toNat_append_eq, Nat.shiftRight_eq_div_pow]
  omega

@[simp] theorem twP_twOf : twP (twOf s p w a) = p := by
  apply BitVec.eq_of_toNat_eq
  simp only [twP, twOf, BitVec.extractLsb'_toNat, toNat_append_eq, Nat.shiftRight_eq_div_pow]
  omega

@[simp] theorem twW_twOf : twW (twOf s p w a) = w := by
  apply BitVec.eq_of_toNat_eq
  simp only [twW, twOf, BitVec.extractLsb'_toNat, toNat_append_eq, Nat.shiftRight_eq_div_pow]
  omega

@[simp] theorem twA_twOf : twA (twOf s p w a) = a := by
  apply BitVec.eq_of_toNat_eq
  simp only [twA, twOf, BitVec.extractLsb'_toNat, toNat_append_eq, Nat.shiftRight_eq_div_pow]
  omega

/-- A transaction word is made of its fields. -/
theorem twOf_fields (tw : BitVec 20) : twOf (twSpace tw) (twP tw) (twW tw) (twA tw) = tw := by
  apply BitVec.eq_of_toNat_eq
  simp only [twSpace, twP, twW, twA, twOf, BitVec.extractLsb'_toNat, toNat_append_eq, Nat.shiftRight_eq_div_pow]
  omega

end Fields

section PortFields
variable (mirror : BitVec 10) (port : BitVec 3)

@[simp] theorem portAddr_top : (portAddr mirror port).extractLsb' 13 3 = 1#3 := by
  apply BitVec.eq_of_toNat_eq
  simp only [portAddr, BitVec.extractLsb'_toNat, toNat_append_eq, Nat.shiftRight_eq_div_pow, BitVec.toNat_ofNat]
  omega

@[simp] theorem portAddr_port : (portAddr mirror port).extractLsb' 0 3 = port := by
  apply BitVec.eq_of_toNat_eq
  simp only [portAddr, BitVec.extractLsb'_toNat, toNat_append_eq, Nat.shiftRight_eq_div_pow, BitVec.toNat_ofNat]
  omega

@[simp] theorem portAddr_mirror : (portAddr mirror port).extractLsb' 3 10 = mirror := by
  apply BitVec.eq_of_toNat_eq
  simp only [portAddr, BitVec.extractLsb'_toNat, toNat_append_eq, Nat.shiftRight_eq_div_pow, BitVec.toNat_ofNat]
  omega

/-- A port address is made of its fields. -/
theorem portAddr_fields (a : Addr) (h : a.extractLsb' 13 3 = 1#3) :
    portAddr (a.extractLsb' 3 10) (a.extractLsb' 0 3) = a := by
  have h' := congrArg BitVec.toNat h
  apply BitVec.eq_of_toNat_eq
  simp only [portAddr, BitVec.extractLsb'_toNat, toNat_append_eq, Nat.shiftRight_eq_div_pow, BitVec.toNat_ofNat] at h' ⊢
  omega

end PortFields

/-- The low field of two joined fields. -/
theorem extract_low_append {m n : Nat} (x : BitVec m) (y : BitVec n) : (x ++ y).extractLsb' 0 n = y := by
  apply BitVec.eq_of_toNat_eq
  rw [BitVec.extractLsb'_toNat, toNat_append_eq, Nat.shiftRight_zero, Nat.mul_add_mod_self_right, Nat.mod_eq_of_lt y.isLt]

end Sys2Proof
end

