-- ==== Sys2Proof/Laws/Ops.lean ====
section
/-! SUPPORT. What the shared operations can do: the outcome under the fault check, a finished operation, a refusal, and
the fetch of the next call. -/

namespace Sys2Proof.Machine

/-- A live session runs the operation. -/
theorem live_of_alive {s : State} {k : Outcome} (h : s.Alive) : live s k = k := by
  unfold State.Alive at h
  simp [live, h]

/-- A faulted session has no next state (R36). -/
theorem live_of_faulted {s : State} {k : Outcome} {r : Fault} (h : s.out.faulted = some r) : live s k = .fault r := by
  simp [live, h]

/-- What a check that answers a next state tells. -/
theorem live_next {s t : State} {k : Outcome} (h : live s k = .next t) : s.Alive ∧ k = .next t := by
  unfold live at h
  split at h
  · cases h
  · rename_i hn
    exact ⟨hn, h⟩

@[simp] theorem finish_next {s t : State} {r : OpResult} : finish s r = .next t ↔ { s with result := r } = t := by
  simp [finish]

/-- What a finished operation tells. -/
theorem finishOr_next {x : Except Fault State} {r : State → OpResult} {t : State} (h : finishOr x r = .next t) :
    ∃ s, x = .ok s ∧ t = { s with result := r s } := by
  unfold finishOr at h
  split at h
  · exact ⟨_, rfl, by simpa [finish] using h.symm⟩
  · cases h

@[simp] theorem finishOr_ok (s : State) (r : State → OpResult) : finishOr (.ok s) r = .next { s with result := r s } := rfl

@[simp] theorem finishOr_error (f : Fault) (r : State → OpResult) : finishOr (.error f) r = .fault f := rfl

/-- A refusal keeps the first reason of the run (R143). -/
theorem refuse_eq (s : State) (r : RefuseReason) :
    refuse s r = .next { s with
      out := { s.out with refused := s.out.refused.or (some r) }
      result := .refused r } := rfl

@[simp] theorem fetch_nil {s : State} (h : s.schedule = []) : fetch s = none := by simp [fetch, h]

@[simp] theorem fetch_cons {s : State} {c : Call} {rest : List Call} (h : s.schedule = c :: rest) :
    fetch s = some (c, { s with schedule := rest }) := by simp [fetch, h]

/-- What the fetch of a call tells. -/
theorem fetch_some {s u : State} {c : Call} (h : fetch s = some (c, u)) :
    ∃ rest, s.schedule = c :: rest ∧ u = { s with schedule := rest } := by
  unfold fetch at h
  split at h
  · cases h
  · rename_i c' rest hs
    simp only [Option.some.injEq, Prod.mk.injEq] at h
    obtain ⟨rfl, rfl⟩ := h
    exact ⟨rest, hs, rfl⟩

end Sys2Proof.Machine
end

