-- ==== Sys2Proof/Laws/State.lean ====
section
/-! SUPPORT. One lemma for each field and each named update of the state, so that no proof unfolds a record update. -/

namespace Sys2Proof.Machine

section StateUpdates
variable (s : State)

@[simp] theorem diag_ppu (e : DiagEvent) : (diag s e).ppu = s.ppu := rfl
@[simp] theorem diag_pb (e : DiagEvent) : (diag s e).pb = s.pb := rfl
@[simp] theorem diag_mapper (e : DiagEvent) : (diag s e).mapper = s.mapper := rfl
@[simp] theorem diag_ctrl1 (e : DiagEvent) : (diag s e).ctrl1 = s.ctrl1 := rfl
@[simp] theorem diag_ctrl2 (e : DiagEvent) : (diag s e).ctrl2 = s.ctrl2 := rfl
@[simp] theorem diag_out (e : DiagEvent) : (diag s e).out = { s.out with diagLog := s.out.diagLog ++ [e] } := rfl
@[simp] theorem diag_cart (e : DiagEvent) : (diag s e).cart = s.cart := rfl
@[simp] theorem diag_par (e : DiagEvent) : (diag s e).par = s.par := rfl
@[simp] theorem diag_schedule (e : DiagEvent) : (diag s e).schedule = s.schedule := rfl
@[simp] theorem diag_result (e : DiagEvent) : (diag s e).result = s.result := rfl
@[simp] theorem diag_draws (e : DiagEvent) : (diag s e).draws = s.draws := rfl

@[simp] theorem emitNmi_ppu  : (emitNmi s).ppu = s.ppu := rfl
@[simp] theorem emitNmi_pb  : (emitNmi s).pb = s.pb := rfl
@[simp] theorem emitNmi_mapper  : (emitNmi s).mapper = s.mapper := rfl
@[simp] theorem emitNmi_ctrl1  : (emitNmi s).ctrl1 = s.ctrl1 := rfl
@[simp] theorem emitNmi_ctrl2  : (emitNmi s).ctrl2 = s.ctrl2 := rfl
@[simp] theorem emitNmi_out  : (emitNmi s).out = { s.out with nmiCount := s.out.nmiCount + 1 } := rfl
@[simp] theorem emitNmi_cart  : (emitNmi s).cart = s.cart := rfl
@[simp] theorem emitNmi_par  : (emitNmi s).par = s.par := rfl
@[simp] theorem emitNmi_schedule  : (emitNmi s).schedule = s.schedule := rfl
@[simp] theorem emitNmi_result  : (emitNmi s).result = s.result := rfl
@[simp] theorem emitNmi_draws  : (emitNmi s).draws = s.draws := rfl

@[simp] theorem drawn_ppu  : (drawn s).ppu = s.ppu := rfl
@[simp] theorem drawn_pb  : (drawn s).pb = s.pb := rfl
@[simp] theorem drawn_mapper  : (drawn s).mapper = s.mapper := rfl
@[simp] theorem drawn_ctrl1  : (drawn s).ctrl1 = s.ctrl1 := rfl
@[simp] theorem drawn_ctrl2  : (drawn s).ctrl2 = s.ctrl2 := rfl
@[simp] theorem drawn_out  : (drawn s).out = s.out := rfl
@[simp] theorem drawn_cart  : (drawn s).cart = s.cart := rfl
@[simp] theorem drawn_par  : (drawn s).par = s.par := rfl
@[simp] theorem drawn_schedule  : (drawn s).schedule = s.schedule := rfl
@[simp] theorem drawn_result  : (drawn s).result = s.result := rfl
@[simp] theorem drawn_draws  : (drawn s).draws = s.draws + 1 := rfl

@[simp] theorem withCall_ppu (c : Call) : (withCall s c).ppu = s.ppu := rfl
@[simp] theorem withCall_pb (c : Call) : (withCall s c).pb = s.pb := rfl
@[simp] theorem withCall_mapper (c : Call) : (withCall s c).mapper = s.mapper := rfl
@[simp] theorem withCall_ctrl1 (c : Call) : (withCall s c).ctrl1 = s.ctrl1 := rfl
@[simp] theorem withCall_ctrl2 (c : Call) : (withCall s c).ctrl2 = s.ctrl2 := rfl
@[simp] theorem withCall_out (c : Call) : (withCall s c).out = s.out := rfl
@[simp] theorem withCall_cart (c : Call) : (withCall s c).cart = s.cart := rfl
@[simp] theorem withCall_par (c : Call) : (withCall s c).par = s.par := rfl
@[simp] theorem withCall_schedule (c : Call) : (withCall s c).schedule = c :: s.schedule := rfl
@[simp] theorem withCall_result (c : Call) : (withCall s c).result = s.result := rfl
@[simp] theorem withCall_draws (c : Call) : (withCall s c).draws = s.draws := rfl

end StateUpdates

section PpuUpdates
variable (p : Ppu)

@[simp] theorem applyControl_phase (b : Byte) : (applyControl p b).phase = p.phase := rfl
@[simp] theorem applyControl_scanline (b : Byte) : (applyControl p b).scanline = p.scanline := rfl
@[simp] theorem applyControl_dot (b : Byte) : (applyControl p b).dot = p.dot := rfl
@[simp] theorem applyControl_evenFrame (b : Byte) : (applyControl p b).evenFrame = p.evenFrame := rfl
@[simp] theorem applyControl_v (b : Byte) : (applyControl p b).v = p.v := rfl
@[simp] theorem applyControl_t (b : Byte) : (applyControl p b).t = (p.t &&& ~~~0x0C00#15) ||| ((b.extractLsb' 0 2).setWidth 15 <<< 10) := rfl
@[simp] theorem applyControl_fineX (b : Byte) : (applyControl p b).fineX = p.fineX := rfl
@[simp] theorem applyControl_firstWrite (b : Byte) : (applyControl p b).firstWrite = p.firstWrite := rfl
@[simp] theorem applyControl_generateInterrupt (b : Byte) : (applyControl p b).generateInterrupt = b.getLsbD 7 := rfl
@[simp] theorem applyControl_longSprites (b : Byte) : (applyControl p b).longSprites = b.getLsbD 5 := rfl
@[simp] theorem applyControl_bgPage (b : Byte) : (applyControl p b).bgPage = b.extractLsb' 4 1 := rfl
@[simp] theorem applyControl_sprPage (b : Byte) : (applyControl p b).sprPage = b.extractLsb' 3 1 := rfl
@[simp] theorem applyControl_increment (b : Byte) : (applyControl p b).increment = (if b.getLsbD 2 then .by32 else .by1) := rfl
@[simp] theorem applyControl_greyscale (b : Byte) : (applyControl p b).greyscale = p.greyscale := rfl
@[simp] theorem applyControl_showBackground (b : Byte) : (applyControl p b).showBackground = p.showBackground := rfl
@[simp] theorem applyControl_showSprites (b : Byte) : (applyControl p b).showSprites = p.showSprites := rfl
@[simp] theorem applyControl_hideEdgeBackground (b : Byte) : (applyControl p b).hideEdgeBackground = p.hideEdgeBackground := rfl
@[simp] theorem applyControl_hideEdgeSprites (b : Byte) : (applyControl p b).hideEdgeSprites = p.hideEdgeSprites := rfl
@[simp] theorem applyControl_vblank (b : Byte) : (applyControl p b).vblank = p.vblank := rfl
@[simp] theorem applyControl_sprZeroHit (b : Byte) : (applyControl p b).sprZeroHit = p.sprZeroHit := rfl
@[simp] theorem applyControl_oam (b : Byte) : (applyControl p b).oam = p.oam := rfl
@[simp] theorem applyControl_oamAddr (b : Byte) : (applyControl p b).oamAddr = p.oamAddr := rfl
@[simp] theorem applyControl_lineSprites (b : Byte) : (applyControl p b).lineSprites = p.lineSprites := rfl
@[simp] theorem applyControl_readBuffer (b : Byte) : (applyControl p b).readBuffer = p.readBuffer := rfl
@[simp] theorem applyControl_fb (b : Byte) : (applyControl p b).fb = p.fb := rfl

@[simp] theorem applyMask_phase (b : Byte) : (applyMask p b).phase = p.phase := rfl
@[simp] theorem applyMask_scanline (b : Byte) : (applyMask p b).scanline = p.scanline := rfl
@[simp] theorem applyMask_dot (b : Byte) : (applyMask p b).dot = p.dot := rfl
@[simp] theorem applyMask_evenFrame (b : Byte) : (applyMask p b).evenFrame = p.evenFrame := rfl
@[simp] theorem applyMask_v (b : Byte) : (applyMask p b).v = p.v := rfl
@[simp] theorem applyMask_t (b : Byte) : (applyMask p b).t = p.t := rfl
@[simp] theorem applyMask_fineX (b : Byte) : (applyMask p b).fineX = p.fineX := rfl
@[simp] theorem applyMask_firstWrite (b : Byte) : (applyMask p b).firstWrite = p.firstWrite := rfl
@[simp] theorem applyMask_generateInterrupt (b : Byte) : (applyMask p b).generateInterrupt = p.generateInterrupt := rfl
@[simp] theorem applyMask_longSprites (b : Byte) : (applyMask p b).longSprites = p.longSprites := rfl
@[simp] theorem applyMask_bgPage (b : Byte) : (applyMask p b).bgPage = p.bgPage := rfl
@[simp] theorem applyMask_sprPage (b : Byte) : (applyMask p b).sprPage = p.sprPage := rfl
@[simp] theorem applyMask_increment (b : Byte) : (applyMask p b).increment = p.increment := rfl
@[simp] theorem applyMask_greyscale (b : Byte) : (applyMask p b).greyscale = b.getLsbD 0 := rfl
@[simp] theorem applyMask_showBackground (b : Byte) : (applyMask p b).showBackground = b.getLsbD 3 := rfl
@[simp] theorem applyMask_showSprites (b : Byte) : (applyMask p b).showSprites = b.getLsbD 4 := rfl
@[simp] theorem applyMask_hideEdgeBackground (b : Byte) : (applyMask p b).hideEdgeBackground = !b.getLsbD 1 := rfl
@[simp] theorem applyMask_hideEdgeSprites (b : Byte) : (applyMask p b).hideEdgeSprites = !b.getLsbD 2 := rfl
@[simp] theorem applyMask_vblank (b : Byte) : (applyMask p b).vblank = p.vblank := rfl
@[simp] theorem applyMask_sprZeroHit (b : Byte) : (applyMask p b).sprZeroHit = p.sprZeroHit := rfl
@[simp] theorem applyMask_oam (b : Byte) : (applyMask p b).oam = p.oam := rfl
@[simp] theorem applyMask_oamAddr (b : Byte) : (applyMask p b).oamAddr = p.oamAddr := rfl
@[simp] theorem applyMask_lineSprites (b : Byte) : (applyMask p b).lineSprites = p.lineSprites := rfl
@[simp] theorem applyMask_readBuffer (b : Byte) : (applyMask p b).readBuffer = p.readBuffer := rfl
@[simp] theorem applyMask_fb (b : Byte) : (applyMask p b).fb = p.fb := rfl

@[simp] theorem applyScrollFirst_phase (b : Byte) : (applyScrollFirst p b).phase = p.phase := rfl
@[simp] theorem applyScrollFirst_scanline (b : Byte) : (applyScrollFirst p b).scanline = p.scanline := rfl
@[simp] theorem applyScrollFirst_dot (b : Byte) : (applyScrollFirst p b).dot = p.dot := rfl
@[simp] theorem applyScrollFirst_evenFrame (b : Byte) : (applyScrollFirst p b).evenFrame = p.evenFrame := rfl
@[simp] theorem applyScrollFirst_v (b : Byte) : (applyScrollFirst p b).v = p.v := rfl
@[simp] theorem applyScrollFirst_t (b : Byte) : (applyScrollFirst p b).t = (p.t &&& ~~~0x001F#15) ||| (b.extractLsb' 3 5).setWidth 15 := rfl
@[simp] theorem applyScrollFirst_fineX (b : Byte) : (applyScrollFirst p b).fineX = b.extractLsb' 0 3 := rfl
@[simp] theorem applyScrollFirst_firstWrite (b : Byte) : (applyScrollFirst p b).firstWrite = false := rfl
@[simp] theorem applyScrollFirst_generateInterrupt (b : Byte) : (applyScrollFirst p b).generateInterrupt = p.generateInterrupt := rfl
@[simp] theorem applyScrollFirst_longSprites (b : Byte) : (applyScrollFirst p b).longSprites = p.longSprites := rfl
@[simp] theorem applyScrollFirst_bgPage (b : Byte) : (applyScrollFirst p b).bgPage = p.bgPage := rfl
@[simp] theorem applyScrollFirst_sprPage (b : Byte) : (applyScrollFirst p b).sprPage = p.sprPage := rfl
@[simp] theorem applyScrollFirst_increment (b : Byte) : (applyScrollFirst p b).increment = p.increment := rfl
@[simp] theorem applyScrollFirst_greyscale (b : Byte) : (applyScrollFirst p b).greyscale = p.greyscale := rfl
@[simp] theorem applyScrollFirst_showBackground (b : Byte) : (applyScrollFirst p b).showBackground = p.showBackground := rfl
@[simp] theorem applyScrollFirst_showSprites (b : Byte) : (applyScrollFirst p b).showSprites = p.showSprites := rfl
@[simp] theorem applyScrollFirst_hideEdgeBackground (b : Byte) : (applyScrollFirst p b).hideEdgeBackground = p.hideEdgeBackground := rfl
@[simp] theorem applyScrollFirst_hideEdgeSprites (b : Byte) : (applyScrollFirst p b).hideEdgeSprites = p.hideEdgeSprites := rfl
@[simp] theorem applyScrollFirst_vblank (b : Byte) : (applyScrollFirst p b).vblank = p.vblank := rfl
@[simp] theorem applyScrollFirst_sprZeroHit (b : Byte) : (applyScrollFirst p b).sprZeroHit = p.sprZeroHit := rfl
@[simp] theorem applyScrollFirst_oam (b : Byte) : (applyScrollFirst p b).oam = p.oam := rfl
@[simp] theorem applyScrollFirst_oamAddr (b : Byte) : (applyScrollFirst p b).oamAddr = p.oamAddr := rfl
@[simp] theorem applyScrollFirst_lineSprites (b : Byte) : (applyScrollFirst p b).lineSprites = p.lineSprites := rfl
@[simp] theorem applyScrollFirst_readBuffer (b : Byte) : (applyScrollFirst p b).readBuffer = p.readBuffer := rfl
@[simp] theorem applyScrollFirst_fb (b : Byte) : (applyScrollFirst p b).fb = p.fb := rfl

@[simp] theorem applyScrollSecond_phase (b : Byte) : (applyScrollSecond p b).phase = p.phase := rfl
@[simp] theorem applyScrollSecond_scanline (b : Byte) : (applyScrollSecond p b).scanline = p.scanline := rfl
@[simp] theorem applyScrollSecond_dot (b : Byte) : (applyScrollSecond p b).dot = p.dot := rfl
@[simp] theorem applyScrollSecond_evenFrame (b : Byte) : (applyScrollSecond p b).evenFrame = p.evenFrame := rfl
@[simp] theorem applyScrollSecond_v (b : Byte) : (applyScrollSecond p b).v = p.v := rfl
@[simp] theorem applyScrollSecond_t (b : Byte) : (applyScrollSecond p b).t = (p.t &&& ~~~0x73E0#15) ||| ((b.extractLsb' 0 3).setWidth 15 <<< 12) ||| ((b.extractLsb' 3 5).setWidth 15 <<< 5) := rfl
@[simp] theorem applyScrollSecond_fineX (b : Byte) : (applyScrollSecond p b).fineX = p.fineX := rfl
@[simp] theorem applyScrollSecond_firstWrite (b : Byte) : (applyScrollSecond p b).firstWrite = true := rfl
@[simp] theorem applyScrollSecond_generateInterrupt (b : Byte) : (applyScrollSecond p b).generateInterrupt = p.generateInterrupt := rfl
@[simp] theorem applyScrollSecond_longSprites (b : Byte) : (applyScrollSecond p b).longSprites = p.longSprites := rfl
@[simp] theorem applyScrollSecond_bgPage (b : Byte) : (applyScrollSecond p b).bgPage = p.bgPage := rfl
@[simp] theorem applyScrollSecond_sprPage (b : Byte) : (applyScrollSecond p b).sprPage = p.sprPage := rfl
@[simp] theorem applyScrollSecond_increment (b : Byte) : (applyScrollSecond p b).increment = p.increment := rfl
@[simp] theorem applyScrollSecond_greyscale (b : Byte) : (applyScrollSecond p b).greyscale = p.greyscale := rfl
@[simp] theorem applyScrollSecond_showBackground (b : Byte) : (applyScrollSecond p b).showBackground = p.showBackground := rfl
@[simp] theorem applyScrollSecond_showSprites (b : Byte) : (applyScrollSecond p b).showSprites = p.showSprites := rfl
@[simp] theorem applyScrollSecond_hideEdgeBackground (b : Byte) : (applyScrollSecond p b).hideEdgeBackground = p.hideEdgeBackground := rfl
@[simp] theorem applyScrollSecond_hideEdgeSprites (b : Byte) : (applyScrollSecond p b).hideEdgeSprites = p.hideEdgeSprites := rfl
@[simp] theorem applyScrollSecond_vblank (b : Byte) : (applyScrollSecond p b).vblank = p.vblank := rfl
@[simp] theorem applyScrollSecond_sprZeroHit (b : Byte) : (applyScrollSecond p b).sprZeroHit = p.sprZeroHit := rfl
@[simp] theorem applyScrollSecond_oam (b : Byte) : (applyScrollSecond p b).oam = p.oam := rfl
@[simp] theorem applyScrollSecond_oamAddr (b : Byte) : (applyScrollSecond p b).oamAddr = p.oamAddr := rfl
@[simp] theorem applyScrollSecond_lineSprites (b : Byte) : (applyScrollSecond p b).lineSprites = p.lineSprites := rfl
@[simp] theorem applyScrollSecond_readBuffer (b : Byte) : (applyScrollSecond p b).readBuffer = p.readBuffer := rfl
@[simp] theorem applyScrollSecond_fb (b : Byte) : (applyScrollSecond p b).fb = p.fb := rfl

@[simp] theorem applyAddrFirst_phase (b : Byte) : (applyAddrFirst p b).phase = p.phase := rfl
@[simp] theorem applyAddrFirst_scanline (b : Byte) : (applyAddrFirst p b).scanline = p.scanline := rfl
@[simp] theorem applyAddrFirst_dot (b : Byte) : (applyAddrFirst p b).dot = p.dot := rfl
@[simp] theorem applyAddrFirst_evenFrame (b : Byte) : (applyAddrFirst p b).evenFrame = p.evenFrame := rfl
@[simp] theorem applyAddrFirst_v (b : Byte) : (applyAddrFirst p b).v = p.v := rfl
@[simp] theorem applyAddrFirst_t (b : Byte) : (applyAddrFirst p b).t = (p.t &&& 0x00FF#15) ||| ((b.extractLsb' 0 6).setWidth 15 <<< 8) := rfl
@[simp] theorem applyAddrFirst_fineX (b : Byte) : (applyAddrFirst p b).fineX = p.fineX := rfl
@[simp] theorem applyAddrFirst_firstWrite (b : Byte) : (applyAddrFirst p b).firstWrite = false := rfl
@[simp] theorem applyAddrFirst_generateInterrupt (b : Byte) : (applyAddrFirst p b).generateInterrupt = p.generateInterrupt := rfl
@[simp] theorem applyAddrFirst_longSprites (b : Byte) : (applyAddrFirst p b).longSprites = p.longSprites := rfl
@[simp] theorem applyAddrFirst_bgPage (b : Byte) : (applyAddrFirst p b).bgPage = p.bgPage := rfl
@[simp] theorem applyAddrFirst_sprPage (b : Byte) : (applyAddrFirst p b).sprPage = p.sprPage := rfl
@[simp] theorem applyAddrFirst_increment (b : Byte) : (applyAddrFirst p b).increment = p.increment := rfl
@[simp] theorem applyAddrFirst_greyscale (b : Byte) : (applyAddrFirst p b).greyscale = p.greyscale := rfl
@[simp] theorem applyAddrFirst_showBackground (b : Byte) : (applyAddrFirst p b).showBackground = p.showBackground := rfl
@[simp] theorem applyAddrFirst_showSprites (b : Byte) : (applyAddrFirst p b).showSprites = p.showSprites := rfl
@[simp] theorem applyAddrFirst_hideEdgeBackground (b : Byte) : (applyAddrFirst p b).hideEdgeBackground = p.hideEdgeBackground := rfl
@[simp] theorem applyAddrFirst_hideEdgeSprites (b : Byte) : (applyAddrFirst p b).hideEdgeSprites = p.hideEdgeSprites := rfl
@[simp] theorem applyAddrFirst_vblank (b : Byte) : (applyAddrFirst p b).vblank = p.vblank := rfl
@[simp] theorem applyAddrFirst_sprZeroHit (b : Byte) : (applyAddrFirst p b).sprZeroHit = p.sprZeroHit := rfl
@[simp] theorem applyAddrFirst_oam (b : Byte) : (applyAddrFirst p b).oam = p.oam := rfl
@[simp] theorem applyAddrFirst_oamAddr (b : Byte) : (applyAddrFirst p b).oamAddr = p.oamAddr := rfl
@[simp] theorem applyAddrFirst_lineSprites (b : Byte) : (applyAddrFirst p b).lineSprites = p.lineSprites := rfl
@[simp] theorem applyAddrFirst_readBuffer (b : Byte) : (applyAddrFirst p b).readBuffer = p.readBuffer := rfl
@[simp] theorem applyAddrFirst_fb (b : Byte) : (applyAddrFirst p b).fb = p.fb := rfl

@[simp] theorem applyAddrSecond_phase (b : Byte) : (applyAddrSecond p b).phase = p.phase := rfl
@[simp] theorem applyAddrSecond_scanline (b : Byte) : (applyAddrSecond p b).scanline = p.scanline := rfl
@[simp] theorem applyAddrSecond_dot (b : Byte) : (applyAddrSecond p b).dot = p.dot := rfl
@[simp] theorem applyAddrSecond_evenFrame (b : Byte) : (applyAddrSecond p b).evenFrame = p.evenFrame := rfl
@[simp] theorem applyAddrSecond_v (b : Byte) : (applyAddrSecond p b).v = (p.t &&& 0x7F00#15) ||| b.setWidth 15 := rfl
@[simp] theorem applyAddrSecond_t (b : Byte) : (applyAddrSecond p b).t = (p.t &&& 0x7F00#15) ||| b.setWidth 15 := rfl
@[simp] theorem applyAddrSecond_fineX (b : Byte) : (applyAddrSecond p b).fineX = p.fineX := rfl
@[simp] theorem applyAddrSecond_firstWrite (b : Byte) : (applyAddrSecond p b).firstWrite = true := rfl
@[simp] theorem applyAddrSecond_generateInterrupt (b : Byte) : (applyAddrSecond p b).generateInterrupt = p.generateInterrupt := rfl
@[simp] theorem applyAddrSecond_longSprites (b : Byte) : (applyAddrSecond p b).longSprites = p.longSprites := rfl
@[simp] theorem applyAddrSecond_bgPage (b : Byte) : (applyAddrSecond p b).bgPage = p.bgPage := rfl
@[simp] theorem applyAddrSecond_sprPage (b : Byte) : (applyAddrSecond p b).sprPage = p.sprPage := rfl
@[simp] theorem applyAddrSecond_increment (b : Byte) : (applyAddrSecond p b).increment = p.increment := rfl
@[simp] theorem applyAddrSecond_greyscale (b : Byte) : (applyAddrSecond p b).greyscale = p.greyscale := rfl
@[simp] theorem applyAddrSecond_showBackground (b : Byte) : (applyAddrSecond p b).showBackground = p.showBackground := rfl
@[simp] theorem applyAddrSecond_showSprites (b : Byte) : (applyAddrSecond p b).showSprites = p.showSprites := rfl
@[simp] theorem applyAddrSecond_hideEdgeBackground (b : Byte) : (applyAddrSecond p b).hideEdgeBackground = p.hideEdgeBackground := rfl
@[simp] theorem applyAddrSecond_hideEdgeSprites (b : Byte) : (applyAddrSecond p b).hideEdgeSprites = p.hideEdgeSprites := rfl
@[simp] theorem applyAddrSecond_vblank (b : Byte) : (applyAddrSecond p b).vblank = p.vblank := rfl
@[simp] theorem applyAddrSecond_sprZeroHit (b : Byte) : (applyAddrSecond p b).sprZeroHit = p.sprZeroHit := rfl
@[simp] theorem applyAddrSecond_oam (b : Byte) : (applyAddrSecond p b).oam = p.oam := rfl
@[simp] theorem applyAddrSecond_oamAddr (b : Byte) : (applyAddrSecond p b).oamAddr = p.oamAddr := rfl
@[simp] theorem applyAddrSecond_lineSprites (b : Byte) : (applyAddrSecond p b).lineSprites = p.lineSprites := rfl
@[simp] theorem applyAddrSecond_readBuffer (b : Byte) : (applyAddrSecond p b).readBuffer = p.readBuffer := rfl
@[simp] theorem applyAddrSecond_fb (b : Byte) : (applyAddrSecond p b).fb = p.fb := rfl

@[simp] theorem incV_phase  : (incV p).phase = p.phase := rfl
@[simp] theorem incV_scanline  : (incV p).scanline = p.scanline := rfl
@[simp] theorem incV_dot  : (incV p).dot = p.dot := rfl
@[simp] theorem incV_evenFrame  : (incV p).evenFrame = p.evenFrame := rfl
@[simp] theorem incV_v  : (incV p).v = p.v + stepOf p.increment := rfl
@[simp] theorem incV_t  : (incV p).t = p.t := rfl
@[simp] theorem incV_fineX  : (incV p).fineX = p.fineX := rfl
@[simp] theorem incV_firstWrite  : (incV p).firstWrite = p.firstWrite := rfl
@[simp] theorem incV_generateInterrupt  : (incV p).generateInterrupt = p.generateInterrupt := rfl
@[simp] theorem incV_longSprites  : (incV p).longSprites = p.longSprites := rfl
@[simp] theorem incV_bgPage  : (incV p).bgPage = p.bgPage := rfl
@[simp] theorem incV_sprPage  : (incV p).sprPage = p.sprPage := rfl
@[simp] theorem incV_increment  : (incV p).increment = p.increment := rfl
@[simp] theorem incV_greyscale  : (incV p).greyscale = p.greyscale := rfl
@[simp] theorem incV_showBackground  : (incV p).showBackground = p.showBackground := rfl
@[simp] theorem incV_showSprites  : (incV p).showSprites = p.showSprites := rfl
@[simp] theorem incV_hideEdgeBackground  : (incV p).hideEdgeBackground = p.hideEdgeBackground := rfl
@[simp] theorem incV_hideEdgeSprites  : (incV p).hideEdgeSprites = p.hideEdgeSprites := rfl
@[simp] theorem incV_vblank  : (incV p).vblank = p.vblank := rfl
@[simp] theorem incV_sprZeroHit  : (incV p).sprZeroHit = p.sprZeroHit := rfl
@[simp] theorem incV_oam  : (incV p).oam = p.oam := rfl
@[simp] theorem incV_oamAddr  : (incV p).oamAddr = p.oamAddr := rfl
@[simp] theorem incV_lineSprites  : (incV p).lineSprites = p.lineSprites := rfl
@[simp] theorem incV_readBuffer  : (incV p).readBuffer = p.readBuffer := rfl
@[simp] theorem incV_fb  : (incV p).fb = p.fb := rfl

@[simp] theorem statusReadEffect_phase  : (statusReadEffect p).phase = p.phase := rfl
@[simp] theorem statusReadEffect_scanline  : (statusReadEffect p).scanline = p.scanline := rfl
@[simp] theorem statusReadEffect_dot  : (statusReadEffect p).dot = p.dot := rfl
@[simp] theorem statusReadEffect_evenFrame  : (statusReadEffect p).evenFrame = p.evenFrame := rfl
@[simp] theorem statusReadEffect_v  : (statusReadEffect p).v = p.v := rfl
@[simp] theorem statusReadEffect_t  : (statusReadEffect p).t = p.t := rfl
@[simp] theorem statusReadEffect_fineX  : (statusReadEffect p).fineX = p.fineX := rfl
@[simp] theorem statusReadEffect_firstWrite  : (statusReadEffect p).firstWrite = true := rfl
@[simp] theorem statusReadEffect_generateInterrupt  : (statusReadEffect p).generateInterrupt = p.generateInterrupt := rfl
@[simp] theorem statusReadEffect_longSprites  : (statusReadEffect p).longSprites = p.longSprites := rfl
@[simp] theorem statusReadEffect_bgPage  : (statusReadEffect p).bgPage = p.bgPage := rfl
@[simp] theorem statusReadEffect_sprPage  : (statusReadEffect p).sprPage = p.sprPage := rfl
@[simp] theorem statusReadEffect_increment  : (statusReadEffect p).increment = p.increment := rfl
@[simp] theorem statusReadEffect_greyscale  : (statusReadEffect p).greyscale = p.greyscale := rfl
@[simp] theorem statusReadEffect_showBackground  : (statusReadEffect p).showBackground = p.showBackground := rfl
@[simp] theorem statusReadEffect_showSprites  : (statusReadEffect p).showSprites = p.showSprites := rfl
@[simp] theorem statusReadEffect_hideEdgeBackground  : (statusReadEffect p).hideEdgeBackground = p.hideEdgeBackground := rfl
@[simp] theorem statusReadEffect_hideEdgeSprites  : (statusReadEffect p).hideEdgeSprites = p.hideEdgeSprites := rfl
@[simp] theorem statusReadEffect_vblank  : (statusReadEffect p).vblank = false := rfl
@[simp] theorem statusReadEffect_sprZeroHit  : (statusReadEffect p).sprZeroHit = p.sprZeroHit := rfl
@[simp] theorem statusReadEffect_oam  : (statusReadEffect p).oam = p.oam := rfl
@[simp] theorem statusReadEffect_oamAddr  : (statusReadEffect p).oamAddr = p.oamAddr := rfl
@[simp] theorem statusReadEffect_lineSprites  : (statusReadEffect p).lineSprites = p.lineSprites := rfl
@[simp] theorem statusReadEffect_readBuffer  : (statusReadEffect p).readBuffer = p.readBuffer := rfl
@[simp] theorem statusReadEffect_fb  : (statusReadEffect p).fb = p.fb := rfl

@[simp] theorem clearStatusFlags_phase  : (clearStatusFlags p).phase = p.phase := rfl
@[simp] theorem clearStatusFlags_scanline  : (clearStatusFlags p).scanline = p.scanline := rfl
@[simp] theorem clearStatusFlags_dot  : (clearStatusFlags p).dot = p.dot := rfl
@[simp] theorem clearStatusFlags_evenFrame  : (clearStatusFlags p).evenFrame = p.evenFrame := rfl
@[simp] theorem clearStatusFlags_v  : (clearStatusFlags p).v = p.v := rfl
@[simp] theorem clearStatusFlags_t  : (clearStatusFlags p).t = p.t := rfl
@[simp] theorem clearStatusFlags_fineX  : (clearStatusFlags p).fineX = p.fineX := rfl
@[simp] theorem clearStatusFlags_firstWrite  : (clearStatusFlags p).firstWrite = p.firstWrite := rfl
@[simp] theorem clearStatusFlags_generateInterrupt  : (clearStatusFlags p).generateInterrupt = p.generateInterrupt := rfl
@[simp] theorem clearStatusFlags_longSprites  : (clearStatusFlags p).longSprites = p.longSprites := rfl
@[simp] theorem clearStatusFlags_bgPage  : (clearStatusFlags p).bgPage = p.bgPage := rfl
@[simp] theorem clearStatusFlags_sprPage  : (clearStatusFlags p).sprPage = p.sprPage := rfl
@[simp] theorem clearStatusFlags_increment  : (clearStatusFlags p).increment = p.increment := rfl
@[simp] theorem clearStatusFlags_greyscale  : (clearStatusFlags p).greyscale = p.greyscale := rfl
@[simp] theorem clearStatusFlags_showBackground  : (clearStatusFlags p).showBackground = p.showBackground := rfl
@[simp] theorem clearStatusFlags_showSprites  : (clearStatusFlags p).showSprites = p.showSprites := rfl
@[simp] theorem clearStatusFlags_hideEdgeBackground  : (clearStatusFlags p).hideEdgeBackground = p.hideEdgeBackground := rfl
@[simp] theorem clearStatusFlags_hideEdgeSprites  : (clearStatusFlags p).hideEdgeSprites = p.hideEdgeSprites := rfl
@[simp] theorem clearStatusFlags_vblank  : (clearStatusFlags p).vblank = false := rfl
@[simp] theorem clearStatusFlags_sprZeroHit  : (clearStatusFlags p).sprZeroHit = false := rfl
@[simp] theorem clearStatusFlags_oam  : (clearStatusFlags p).oam = p.oam := rfl
@[simp] theorem clearStatusFlags_oamAddr  : (clearStatusFlags p).oamAddr = p.oamAddr := rfl
@[simp] theorem clearStatusFlags_lineSprites  : (clearStatusFlags p).lineSprites = p.lineSprites := rfl
@[simp] theorem clearStatusFlags_readBuffer  : (clearStatusFlags p).readBuffer = p.readBuffer := rfl
@[simp] theorem clearStatusFlags_fb  : (clearStatusFlags p).fb = p.fb := rfl

@[simp] theorem setVblank_phase  : (setVblank p).phase = p.phase := rfl
@[simp] theorem setVblank_scanline  : (setVblank p).scanline = p.scanline := rfl
@[simp] theorem setVblank_dot  : (setVblank p).dot = p.dot := rfl
@[simp] theorem setVblank_evenFrame  : (setVblank p).evenFrame = p.evenFrame := rfl
@[simp] theorem setVblank_v  : (setVblank p).v = p.v := rfl
@[simp] theorem setVblank_t  : (setVblank p).t = p.t := rfl
@[simp] theorem setVblank_fineX  : (setVblank p).fineX = p.fineX := rfl
@[simp] theorem setVblank_firstWrite  : (setVblank p).firstWrite = p.firstWrite := rfl
@[simp] theorem setVblank_generateInterrupt  : (setVblank p).generateInterrupt = p.generateInterrupt := rfl
@[simp] theorem setVblank_longSprites  : (setVblank p).longSprites = p.longSprites := rfl
@[simp] theorem setVblank_bgPage  : (setVblank p).bgPage = p.bgPage := rfl
@[simp] theorem setVblank_sprPage  : (setVblank p).sprPage = p.sprPage := rfl
@[simp] theorem setVblank_increment  : (setVblank p).increment = p.increment := rfl
@[simp] theorem setVblank_greyscale  : (setVblank p).greyscale = p.greyscale := rfl
@[simp] theorem setVblank_showBackground  : (setVblank p).showBackground = p.showBackground := rfl
@[simp] theorem setVblank_showSprites  : (setVblank p).showSprites = p.showSprites := rfl
@[simp] theorem setVblank_hideEdgeBackground  : (setVblank p).hideEdgeBackground = p.hideEdgeBackground := rfl
@[simp] theorem setVblank_hideEdgeSprites  : (setVblank p).hideEdgeSprites = p.hideEdgeSprites := rfl
@[simp] theorem setVblank_vblank  : (setVblank p).vblank = true := rfl
@[simp] theorem setVblank_sprZeroHit  : (setVblank p).sprZeroHit = p.sprZeroHit := rfl
@[simp] theorem setVblank_oam  : (setVblank p).oam = p.oam := rfl
@[simp] theorem setVblank_oamAddr  : (setVblank p).oamAddr = p.oamAddr := rfl
@[simp] theorem setVblank_lineSprites  : (setVblank p).lineSprites = p.lineSprites := rfl
@[simp] theorem setVblank_readBuffer  : (setVblank p).readBuffer = p.readBuffer := rfl
@[simp] theorem setVblank_fb  : (setVblank p).fb = p.fb := rfl

@[simp] theorem putPixel_phase (x y : Nat) (c : Color) (hit : Bool) : (putPixel p x y c hit).phase = p.phase := rfl
@[simp] theorem putPixel_scanline (x y : Nat) (c : Color) (hit : Bool) : (putPixel p x y c hit).scanline = p.scanline := rfl
@[simp] theorem putPixel_dot (x y : Nat) (c : Color) (hit : Bool) : (putPixel p x y c hit).dot = p.dot := rfl
@[simp] theorem putPixel_evenFrame (x y : Nat) (c : Color) (hit : Bool) : (putPixel p x y c hit).evenFrame = p.evenFrame := rfl
@[simp] theorem putPixel_v (x y : Nat) (c : Color) (hit : Bool) : (putPixel p x y c hit).v = p.v := rfl
@[simp] theorem putPixel_t (x y : Nat) (c : Color) (hit : Bool) : (putPixel p x y c hit).t = p.t := rfl
@[simp] theorem putPixel_fineX (x y : Nat) (c : Color) (hit : Bool) : (putPixel p x y c hit).fineX = p.fineX := rfl
@[simp] theorem putPixel_firstWrite (x y : Nat) (c : Color) (hit : Bool) : (putPixel p x y c hit).firstWrite = p.firstWrite := rfl
@[simp] theorem putPixel_generateInterrupt (x y : Nat) (c : Color) (hit : Bool) : (putPixel p x y c hit).generateInterrupt = p.generateInterrupt := rfl
@[simp] theorem putPixel_longSprites (x y : Nat) (c : Color) (hit : Bool) : (putPixel p x y c hit).longSprites = p.longSprites := rfl
@[simp] theorem putPixel_bgPage (x y : Nat) (c : Color) (hit : Bool) : (putPixel p x y c hit).bgPage = p.bgPage := rfl
@[simp] theorem putPixel_sprPage (x y : Nat) (c : Color) (hit : Bool) : (putPixel p x y c hit).sprPage = p.sprPage := rfl
@[simp] theorem putPixel_increment (x y : Nat) (c : Color) (hit : Bool) : (putPixel p x y c hit).increment = p.increment := rfl
@[simp] theorem putPixel_greyscale (x y : Nat) (c : Color) (hit : Bool) : (putPixel p x y c hit).greyscale = p.greyscale := rfl
@[simp] theorem putPixel_showBackground (x y : Nat) (c : Color) (hit : Bool) : (putPixel p x y c hit).showBackground = p.showBackground := rfl
@[simp] theorem putPixel_showSprites (x y : Nat) (c : Color) (hit : Bool) : (putPixel p x y c hit).showSprites = p.showSprites := rfl
@[simp] theorem putPixel_hideEdgeBackground (x y : Nat) (c : Color) (hit : Bool) : (putPixel p x y c hit).hideEdgeBackground = p.hideEdgeBackground := rfl
@[simp] theorem putPixel_hideEdgeSprites (x y : Nat) (c : Color) (hit : Bool) : (putPixel p x y c hit).hideEdgeSprites = p.hideEdgeSprites := rfl
@[simp] theorem putPixel_vblank (x y : Nat) (c : Color) (hit : Bool) : (putPixel p x y c hit).vblank = p.vblank := rfl
@[simp] theorem putPixel_sprZeroHit (x y : Nat) (c : Color) (hit : Bool) : (putPixel p x y c hit).sprZeroHit = (p.sprZeroHit || hit) := rfl
@[simp] theorem putPixel_oam (x y : Nat) (c : Color) (hit : Bool) : (putPixel p x y c hit).oam = p.oam := rfl
@[simp] theorem putPixel_oamAddr (x y : Nat) (c : Color) (hit : Bool) : (putPixel p x y c hit).oamAddr = p.oamAddr := rfl
@[simp] theorem putPixel_lineSprites (x y : Nat) (c : Color) (hit : Bool) : (putPixel p x y c hit).lineSprites = p.lineSprites := rfl
@[simp] theorem putPixel_readBuffer (x y : Nat) (c : Color) (hit : Bool) : (putPixel p x y c hit).readBuffer = p.readBuffer := rfl
@[simp] theorem putPixel_fb (x y : Nat) (c : Color) (hit : Bool) : (putPixel p x y c hit).fb = fbWrite p.fb x y c := rfl

@[simp] theorem renderLineEnd_phase  : (renderLineEnd p).phase = (if p.scanline + 1#9 = 240#9 then .postRender else p.phase) := rfl
@[simp] theorem renderLineEnd_scanline  : (renderLineEnd p).scanline = p.scanline + 1#9 := rfl
@[simp] theorem renderLineEnd_dot  : (renderLineEnd p).dot = p.dot := rfl
@[simp] theorem renderLineEnd_evenFrame  : (renderLineEnd p).evenFrame = p.evenFrame := rfl
@[simp] theorem renderLineEnd_v  : (renderLineEnd p).v = p.v := rfl
@[simp] theorem renderLineEnd_t  : (renderLineEnd p).t = p.t := rfl
@[simp] theorem renderLineEnd_fineX  : (renderLineEnd p).fineX = p.fineX := rfl
@[simp] theorem renderLineEnd_firstWrite  : (renderLineEnd p).firstWrite = p.firstWrite := rfl
@[simp] theorem renderLineEnd_generateInterrupt  : (renderLineEnd p).generateInterrupt = p.generateInterrupt := rfl
@[simp] theorem renderLineEnd_longSprites  : (renderLineEnd p).longSprites = p.longSprites := rfl
@[simp] theorem renderLineEnd_bgPage  : (renderLineEnd p).bgPage = p.bgPage := rfl
@[simp] theorem renderLineEnd_sprPage  : (renderLineEnd p).sprPage = p.sprPage := rfl
@[simp] theorem renderLineEnd_increment  : (renderLineEnd p).increment = p.increment := rfl
@[simp] theorem renderLineEnd_greyscale  : (renderLineEnd p).greyscale = p.greyscale := rfl
@[simp] theorem renderLineEnd_showBackground  : (renderLineEnd p).showBackground = p.showBackground := rfl
@[simp] theorem renderLineEnd_showSprites  : (renderLineEnd p).showSprites = p.showSprites := rfl
@[simp] theorem renderLineEnd_hideEdgeBackground  : (renderLineEnd p).hideEdgeBackground = p.hideEdgeBackground := rfl
@[simp] theorem renderLineEnd_hideEdgeSprites  : (renderLineEnd p).hideEdgeSprites = p.hideEdgeSprites := rfl
@[simp] theorem renderLineEnd_vblank  : (renderLineEnd p).vblank = p.vblank := rfl
@[simp] theorem renderLineEnd_sprZeroHit  : (renderLineEnd p).sprZeroHit = p.sprZeroHit := rfl
@[simp] theorem renderLineEnd_oam  : (renderLineEnd p).oam = p.oam := rfl
@[simp] theorem renderLineEnd_oamAddr  : (renderLineEnd p).oamAddr = p.oamAddr := rfl
@[simp] theorem renderLineEnd_lineSprites  : (renderLineEnd p).lineSprites = evaluateSprites p p.scanline.toNat := rfl
@[simp] theorem renderLineEnd_readBuffer  : (renderLineEnd p).readBuffer = p.readBuffer := rfl
@[simp] theorem renderLineEnd_fb  : (renderLineEnd p).fb = p.fb := rfl

@[simp] theorem resetPpu_phase (par : Params) : (resetPpu par p).phase = .preRender := rfl
@[simp] theorem resetPpu_scanline (par : Params) : (resetPpu par p).scanline = 0#9 := rfl
@[simp] theorem resetPpu_dot (par : Params) : (resetPpu par p).dot = 0#9 := rfl
@[simp] theorem resetPpu_evenFrame (par : Params) : (resetPpu par p).evenFrame = true := rfl
@[simp] theorem resetPpu_v (par : Params) : (resetPpu par p).v = 0#15 := rfl
@[simp] theorem resetPpu_t (par : Params) : (resetPpu par p).t = 0#15 := rfl
@[simp] theorem resetPpu_fineX (par : Params) : (resetPpu par p).fineX = 0#3 := rfl
@[simp] theorem resetPpu_firstWrite (par : Params) : (resetPpu par p).firstWrite = true := rfl
@[simp] theorem resetPpu_generateInterrupt (par : Params) : (resetPpu par p).generateInterrupt = false := rfl
@[simp] theorem resetPpu_longSprites (par : Params) : (resetPpu par p).longSprites = false := rfl
@[simp] theorem resetPpu_bgPage (par : Params) : (resetPpu par p).bgPage = 0#1 := rfl
@[simp] theorem resetPpu_sprPage (par : Params) : (resetPpu par p).sprPage = 0#1 := rfl
@[simp] theorem resetPpu_increment (par : Params) : (resetPpu par p).increment = .by1 := rfl
@[simp] theorem resetPpu_greyscale (par : Params) : (resetPpu par p).greyscale = par.resetMask.getLsbD 0 := rfl
@[simp] theorem resetPpu_showBackground (par : Params) : (resetPpu par p).showBackground = par.resetMask.getLsbD 3 := rfl
@[simp] theorem resetPpu_showSprites (par : Params) : (resetPpu par p).showSprites = par.resetMask.getLsbD 4 := rfl
@[simp] theorem resetPpu_hideEdgeBackground (par : Params) : (resetPpu par p).hideEdgeBackground = !par.resetMask.getLsbD 1 := rfl
@[simp] theorem resetPpu_hideEdgeSprites (par : Params) : (resetPpu par p).hideEdgeSprites = !par.resetMask.getLsbD 2 := rfl
@[simp] theorem resetPpu_vblank (par : Params) : (resetPpu par p).vblank = false := rfl
@[simp] theorem resetPpu_sprZeroHit (par : Params) : (resetPpu par p).sprZeroHit = false := rfl
@[simp] theorem resetPpu_oam (par : Params) : (resetPpu par p).oam = p.oam := rfl
@[simp] theorem resetPpu_oamAddr (par : Params) : (resetPpu par p).oamAddr = 0#8 := rfl
@[simp] theorem resetPpu_lineSprites (par : Params) : (resetPpu par p).lineSprites = [] := rfl
@[simp] theorem resetPpu_readBuffer (par : Params) : (resetPpu par p).readBuffer = p.readBuffer := rfl
@[simp] theorem resetPpu_fb (par : Params) : (resetPpu par p).fb = p.fb := rfl

end PpuUpdates

end Sys2Proof.Machine
end

