-- ==== Sys2Proof/Laws/Mapper.lean ====
section
/-! SUPPORT. What the mapper operations can do (R115 to R130): the frames that hold for every variant, and the results
of the fixed-mapping variant. -/

namespace Sys2Proof.Machine

/-- What a write of the mapper may leave (R117 I5, R144): only mapper state and the diagnostic log change. -/
structure MapperFrame (s t : State) : Prop where
  ppu : t.ppu = s.ppu
  pb : t.pb = s.pb
  ctrl1 : t.ctrl1 = s.ctrl1
  ctrl2 : t.ctrl2 = s.ctrl2
  cart : t.cart = s.cart
  par : t.par = s.par
  schedule : t.schedule = s.schedule
  result : t.result = s.result
  draws : t.draws = s.draws
  nmi : t.out.nmiCount = s.out.nmiCount
  faulted : t.out.faulted = s.out.faulted
  refused : t.out.refused = s.out.refused
  log : ∃ l, l.length ≤ 1 ∧ t.out.diagLog = s.out.diagLog ++ l

theorem MapperFrame.of_mapper (s : State) (m : Mapper) : MapperFrame s { s with mapper := m } :=
  ⟨rfl, rfl, rfl, rfl, rfl, rfl, rfl, rfl, rfl, rfl, rfl, rfl, [], by simp, by simp⟩

theorem MapperFrame.of_diag (s : State) (e : DiagEvent) : MapperFrame s (diag s e) :=
  ⟨rfl, rfl, rfl, rfl, rfl, rfl, rfl, rfl, rfl, rfl, rfl, rfl, [e], by simp, rfl⟩

/-- What a variant's write leaves (R117 c). -/
theorem variantWrite_ok {s t : State} {n : Nat} {st : VariantState} {w : Option VariantWrite} {b : Byte}
    (h : variantWrite s n st w b = .ok t) :
    ∃ banks ram, t = { s with mapper := .variant n { banks := banks, chrRam := ram } }
      ∧ (ram = st.chrRam ∨ ∃ a, a < chrRamSize ∧ ram = Memory.write st.chrRam a b) := by
  unfold variantWrite at h
  split at h
  · cases h
  · rename_i w
    split at h
    · simp only [Except.ok.injEq] at h
      exact ⟨w.banks, st.chrRam, h.symm, .inl rfl⟩
    · rename_i a ha
      split at h
      · rename_i hlt
        simp only [Except.ok.injEq] at h
        exact ⟨w.banks, _, h.symm, .inr ⟨a, hlt, rfl⟩⟩
      · cases h

/-- What a write of PRG space leaves (R119, R127, R117). -/
theorem writePRG_ok {s t : State} {a : Addr} {b : Byte} (h : writePRG s a b = .ok t) :
    t = diag s (.prgWriteIgnored a b)
      ∨ ∃ n st banks ram, s.mapper = .variant n st
        ∧ t = { s with mapper := .variant n { banks := banks, chrRam := ram } }
        ∧ (ram = st.chrRam ∨ ∃ a, a < chrRamSize ∧ ram = Memory.write st.chrRam a b) := by
  unfold writePRG at h
  split at h
  · cases h
  · split at h
    · simp only [Except.ok.injEq] at h
      exact .inl h.symm
    · rename_i n st hm
      obtain ⟨banks, ram, h1, h2⟩ := variantWrite_ok h
      exact .inr ⟨n, st, banks, ram, hm, h1, h2⟩

/-- What a write of a pattern address leaves (R121, R129, R117). -/
theorem writeCHR_ok {s t : State} {a : Addr} {b : Byte} (h : writeCHR s a b = .ok t) :
    t = diag s (.chrWriteIgnored a b)
      ∨ (∃ oneBank ram, s.mapper = .fixed oneBank (some ram) ∧ a ≤ 0x1FFF#16
        ∧ t = { s with mapper := .fixed oneBank (some (Memory.write ram a.toNat b)) })
      ∨ ∃ n st banks ram, s.mapper = .variant n st
        ∧ t = { s with mapper := .variant n { banks := banks, chrRam := ram } }
        ∧ (ram = st.chrRam ∨ ∃ a, a < chrRamSize ∧ ram = Memory.write st.chrRam a b) := by
  unfold writeCHR at h
  split at h
  · cases h
  · rename_i ha
    split at h
    · simp only [Except.ok.injEq] at h
      exact .inl h.symm
    · rename_i one ram hm
      simp only [Except.ok.injEq] at h
      exact .inr (.inl ⟨one, ram, hm, by bv_omega, h.symm⟩)
    · rename_i n st hm
      obtain ⟨banks, ram, h1, h2⟩ := variantWrite_ok h
      exact .inr (.inr ⟨n, st, banks, ram, hm, h1, h2⟩)

theorem writePRG_frame {s t : State} {a : Addr} {b : Byte} (h : writePRG s a b = .ok t) : MapperFrame s t := by
  rcases writePRG_ok h with rfl | ⟨n, st, banks, ram, -, rfl, -⟩
  · exact MapperFrame.of_diag s _
  · exact MapperFrame.of_mapper s _

theorem writeCHR_frame {s t : State} {a : Addr} {b : Byte} (h : writeCHR s a b = .ok t) : MapperFrame s t := by
  rcases writeCHR_ok h with rfl | ⟨one, ram, -, -, rfl⟩ | ⟨n, st, banks, ram, -, rfl, -⟩
  · exact MapperFrame.of_diag s _
  · exact MapperFrame.of_mapper s _
  · exact MapperFrame.of_mapper s _

/-- The mapper of a fixed-mapping session. -/
theorem State.FixedSession.mapper {s : State} (h : s.FixedSession) : ∃ one ram, s.mapper = .fixed one ram := by
  unfold State.FixedSession at h
  split at h
  · rename_i one ram hm
    exact ⟨one, ram, hm⟩
  · exact h.elim

/-- The offset of a PRG address is in the buffer (R125). -/
theorem prgOffset_lt {s : State} (h : s.FixedSession) {a : Addr} (ha : 0x8000#16 ≤ a) :
    prgOffset s a < s.cart.prg.size := by
  obtain ⟨one, ram, hm⟩ := h.mapper
  unfold State.FixedSession at h
  simp only [hm] at h
  unfold prgOffset
  simp only [hm, fixedPrgOffset]
  rcases h.2.1 with ⟨rfl, hs⟩ | ⟨rfl, hs⟩
  · rw [hs]
    simp only [if_true, BitVec.toNat_and]
    exact lt_of_le_of_lt Nat.and_le_right (by decide)
  · rw [hs]
    simp only [Bool.false_eq_true, if_false]
    bv_omega

/-- `readPRG` of a fixed-mapping session (R126). -/
theorem readPRG_fixed {s : State} (h : s.FixedSession) {a : Addr} (ha : 0x8000#16 ≤ a) :
    readPRG s a = .ok (Memory.read s.cart.prg.cells (prgOffset s a)) := by
  have hn : ¬ a < 0x8000#16 := by bv_omega
  simp [readPRG, hn, romRead, prgOffset_lt h ha]

/-- `readCHR` of a fixed-mapping session never faults in its domain (R128). -/
theorem readCHR_fixed {s : State} (h : s.FixedSession) {a : Addr} (ha : a < 0x2000#16) :
    ∃ d, readCHR s a = .ok d := by
  obtain ⟨one, ram, hm⟩ := h.mapper
  unfold State.FixedSession at h
  simp only [hm] at h
  have hn : ¬ 0x1FFF#16 < a := by bv_omega
  unfold readCHR
  simp only [hn, if_false, hm]
  cases ram with
  | none =>
    have hlt : a.toNat < s.cart.chr.size := by
      rw [h.2.2.2]; bv_omega
    exact ⟨_, by simp [romRead, hlt]; rfl⟩
  | some ram => exact ⟨_, rfl⟩

/-- A 256-aligned page of the buffer passes neither end that a page view of the fixed variant has (R130, D33). -/
theorem pageEnd_aligned {s : State} {one : Bool} {ram : Option ByteMemory} (h : s.mapper = .fixed one ram) {a : Addr}
    (aligned : prgOffset s a % 256 = 0) (fits : prgOffset s a + 256 ≤ s.cart.prg.size) :
    prgOffset s a + 256 ≤ pageEnd s a := by
  simp only [pageEnd, h, fixedBankEnd, prgBankSize]
  split <;> omega

/-- A page view of another variant stops at the end of the buffer and at the end of the bank (R117 I1, R122). -/
theorem pageEnd_variant {s : State} {n : Nat} {st : VariantState} (h : s.mapper = .variant n st) (a : Addr) :
    pageEnd s a = min s.cart.prg.size ((Config.mapperVariant n).bankEnd s.cart st a) := by
  simp [pageEnd, h]

/-- A page-aligned view of a fixed-mapping session never faults (R130). -/
theorem getPagePtr_fixed {s : State} (h : s.FixedSession) {n : Byte} (hn : 0x80#8 ≤ n) :
    getPagePtr s (n ++ 0#8)
      = .ok fun k => Memory.read s.cart.prg.cells (prgOffset s (n ++ 0#8) + k.toNat) := by
  have hv : (n ++ 0#8 : BitVec 16).toNat = n.toNat * 256 := by
    rw [toNat_append_eq]; simp
  have h1 : ¬ (n ++ 0#8 : BitVec 16) < 0x8000#16 := by
    rw [BitVec.lt_def, hv]; bv_omega
  obtain ⟨one, ram, hm⟩ := h.mapper
  unfold State.FixedSession at h
  simp only [hm] at h
  have h2 : prgOffset s (n ++ 0#8) % 256 = 0 ∧ prgOffset s (n ++ 0#8) + 256 ≤ s.cart.prg.size := by
    unfold prgOffset
    simp only [hm, fixedPrgOffset]
    have hs : ((n ++ 0#8 : BitVec 16) - 0x8000#16).toNat = n.toNat * 256 - 0x8000 := by
      have : 0x8000#16 ≤ (n ++ 0#8 : BitVec 16) := by rw [BitVec.le_def, hv]; bv_omega
      rw [BitVec.toNat_sub_of_le this, hv]; rfl
    rcases h.2.1 with ⟨rfl, hs'⟩ | ⟨rfl, hs'⟩
    · rw [hs']
      simp only [if_true, BitVec.toNat_and, hs]
      have e : (n.toNat * 256 - 0x8000) &&& (0x3FFF#16).toNat = (n.toNat * 256 - 0x8000) % 2 ^ 14 :=
        Nat.and_two_pow_sub_one_eq_mod _ 14
      rw [e]; omega
    · rw [hs']
      simp only [Bool.false_eq_true, if_false, hs]
      have := n.isLt
      omega
  have h3 : ¬ prgOffset s (n ++ 0#8) + 256 > pageEnd s (n ++ 0#8) := not_lt.mpr (pageEnd_aligned hm h2.1 h2.2)
  simp [getPagePtr, h1, h3]

end Sys2Proof.Machine
end

