-- ==== Sys2Proof/Laws/PictureBus.lean ====
section
/-! SUPPORT. What the PictureBus operations can do (R131 to R136). -/

namespace Sys2Proof.Machine

/-- Nametable offsets are in the 2 KiB of nametable RAM (R135). -/
theorem ntOffset_lt (m : Mirroring) (a : Addr) : ntOffset m a < 2048 := by
  have h := (a.extractLsb' 0 10).isLt
  have hb : ∀ n, ntBase m n ≤ 0x400 := by
    intro n
    cases m <;> simp only [ntBase] <;> (try split) <;> omega
  have := hb (a.extractLsb' 10 2).toNat
  unfold ntOffset
  omega

/-- Palette entries are in 0..31 (R136). -/
theorem paletteEntry_lt (s : State) (a : Addr) : paletteEntry s a < 32 := (palIndex _ _).isLt

theorem pbRead_nametable {s : State} {a : Addr} (h1 : 0x2000#16 ≤ a) (h2 : a < 0x3F00#16) :
    pbRead s a = .ok (Memory.read s.pb.ntRam (ntOffset s.cart.mirroring a)) := by
  have n1 : ¬ 0x4000#16 ≤ a := by bv_omega
  have n2 : ¬ a < 0x2000#16 := by bv_omega
  simp [pbRead, n1, n2, h2]

theorem pbRead_palette {s : State} {a : Addr} (h1 : 0x3F00#16 ≤ a) (h2 : a < 0x4000#16) :
    pbRead s a = .ok (Memory.read s.pb.palette (paletteEntry s a)) := by
  have n1 : ¬ 0x4000#16 ≤ a := by bv_omega
  have n2 : ¬ a < 0x2000#16 := by bv_omega
  have n3 : ¬ a < 0x3F00#16 := by bv_omega
  simp [pbRead, n1, n2, n3]

theorem pbRead_pattern {s : State} {a : Addr} (h : a < 0x2000#16) : pbRead s a = readCHR s a := by
  have n1 : ¬ 0x4000#16 ≤ a := by bv_omega
  simp [pbRead, n1, h]

theorem pbRead_outOfDomain {s : State} {a : Addr} (h : 0x4000#16 ≤ a) : pbRead s a = .error .busOutOfDomain := by
  simp [pbRead, h]

/-- No read below `0x4000` faults in a fixed-mapping session (R132, R142). -/
theorem pbRead_fixed {s : State} (hs : s.FixedSession) {a : Addr} (h : a < 0x4000#16) : ∃ d, pbRead s a = .ok d := by
  by_cases h1 : a < 0x2000#16
  · rw [pbRead_pattern h1]
    exact readCHR_fixed hs h1
  · by_cases h2 : a < 0x3F00#16
    · exact ⟨_, pbRead_nametable (by bv_omega) h2⟩
    · exact ⟨_, pbRead_palette (by bv_omega) h⟩

theorem pbWrite_outOfDomain {s : State} {a : Addr} {b : Byte} (h : 0x4000#16 ≤ a) :
    pbWrite s a b = .error .busOutOfDomain := by
  simp [pbWrite, h]

theorem pbWrite_nametable {s : State} {a : Addr} {b : Byte} (h1 : 0x2000#16 ≤ a) (h2 : a < 0x3F00#16) :
    pbWrite s a b
      = .ok { s with pb := { s.pb with ntRam := Memory.write s.pb.ntRam (ntOffset s.cart.mirroring a) b } } := by
  have n1 : ¬ 0x4000#16 ≤ a := by bv_omega
  have n2 : ¬ a < 0x2000#16 := by bv_omega
  simp [pbWrite, n1, n2, h2]

theorem pbWrite_palette {s : State} {a : Addr} {b : Byte} (h1 : 0x3F00#16 ≤ a) (h2 : a < 0x4000#16) :
    pbWrite s a b
      = .ok { s with pb := { s.pb with palette := Memory.write s.pb.palette (paletteEntry s a) b } } := by
  have n1 : ¬ 0x4000#16 ≤ a := by bv_omega
  have n2 : ¬ a < 0x2000#16 := by bv_omega
  have n3 : ¬ a < 0x3F00#16 := by bv_omega
  simp [pbWrite, n1, n2, n3]

theorem pbWrite_pattern {s : State} {a : Addr} {b : Byte} (h : a < 0x2000#16) : pbWrite s a b = writeCHR s a b := by
  have n1 : ¬ 0x4000#16 ≤ a := by bv_omega
  simp [pbWrite, n1, h]

/-- What a PictureBus write may leave (R133): a nametable byte, a palette byte, or what the mapper does. -/
theorem pbWrite_ok {s t : State} {a : Addr} {b : Byte} (h : pbWrite s a b = .ok t) :
    (writeCHR s a b = .ok t)
      ∨ (0x2000#16 ≤ a ∧ a < 0x3F00#16
        ∧ t = { s with pb := { s.pb with ntRam := Memory.write s.pb.ntRam (ntOffset s.cart.mirroring a) b } })
      ∨ (0x3F00#16 ≤ a ∧ a < 0x4000#16
        ∧ t = { s with pb := { s.pb with palette := Memory.write s.pb.palette (paletteEntry s a) b } }) := by
  unfold pbWrite at h
  split at h
  · cases h
  · split at h
    · exact .inl h
    · split at h
      · simp only [Except.ok.injEq] at h
        exact .inr (.inl ⟨by bv_omega, by assumption, h.symm⟩)
      · simp only [Except.ok.injEq] at h
        exact .inr (.inr ⟨by bv_omega, by bv_omega, h.symm⟩)

/-- No write below `0x4000` faults in a fixed-mapping session (R133, R142). -/
theorem pbWrite_fixed {s : State} (hs : s.FixedSession) {a : Addr} {b : Byte} (h : a < 0x4000#16) :
    ∃ t, pbWrite s a b = .ok t := by
  by_cases h1 : a < 0x2000#16
  · rw [pbWrite_pattern h1]
    obtain ⟨one, ram, hm⟩ := hs.mapper
    have hn : ¬ 0x1FFF#16 < a := by bv_omega
    unfold writeCHR
    simp only [hn, if_false, hm]
    cases ram with
    | none => exact ⟨_, rfl⟩
    | some ram => exact ⟨_, rfl⟩
  · by_cases h2 : a < 0x3F00#16
    · exact ⟨_, pbWrite_nametable (by bv_omega) h2⟩
    · exact ⟨_, pbWrite_palette (by bv_omega) h⟩

/-- Only the palette, the nametables, the mapper and the log change at a PictureBus write. -/
structure BusFrame (s t : State) : Prop where
  ppu : t.ppu = s.ppu
  ctrl1 : t.ctrl1 = s.ctrl1
  ctrl2 : t.ctrl2 = s.ctrl2
  cart : t.cart = s.cart
  par : t.par = s.par
  schedule : t.schedule = s.schedule
  result : t.result = s.result
  draws : t.draws = s.draws
  nmi : t.out.nmiCount = s.out.nmiCount
  faulted : t.out.faulted = s.out.faulted
  refused : t.out.refused = s.out.refused
  log : ∃ l, l.length ≤ 1 ∧ t.out.diagLog = s.out.diagLog ++ l

theorem pbWrite_frame {s t : State} {a : Addr} {b : Byte} (h : pbWrite s a b = .ok t) : BusFrame s t := by
  rcases pbWrite_ok h with h | ⟨-, -, rfl⟩ | ⟨-, -, rfl⟩
  · have f := writeCHR_frame h
    exact ⟨f.ppu, f.ctrl1, f.ctrl2, f.cart, f.par, f.schedule, f.result, f.draws, f.nmi, f.faulted, f.refused, f.log⟩
  · exact ⟨rfl, rfl, rfl, rfl, rfl, rfl, rfl, rfl, rfl, rfl, rfl, [], by simp, by simp⟩
  · exact ⟨rfl, rfl, rfl, rfl, rfl, rfl, rfl, rfl, rfl, rfl, rfl, [], by simp, by simp⟩

theorem pbReadPalette_ok {s : State} (i : BitVec 5) :
    pbReadPalette s (i.setWidth 16) = .ok (Memory.read s.pb.palette (palIndex s.par.paletteAlias i).toNat) := by
  have h1 : ¬ 31#16 < i.setWidth 16 := by
    have := i.isLt
    rw [BitVec.lt_def, BitVec.toNat_setWidth]
    simp only [BitVec.toNat_ofNat]; omega
  have h2 : (i.setWidth 16).extractLsb' 0 5 = i := by
    apply BitVec.eq_of_toNat_eq
    have := i.isLt
    simp only [BitVec.extractLsb'_toNat, BitVec.toNat_setWidth, Nat.shiftRight_zero]
    omega
  simp only [pbReadPalette, h1, if_false, paletteEntry, h2]

/-- The bus address of `v` is below `0x4000` (R40). -/
theorem vBusAddr_lt (v : BitVec 15) : vBusAddr v < 0x4000#16 := by
  have := (v.extractLsb' 0 14).isLt
  rw [BitVec.lt_def, vBusAddr, BitVec.toNat_setWidth]
  simp only [BitVec.toNat_ofNat]; omega

end Sys2Proof.Machine
end

