-- ==== Sys2Proof/Laws/Render.lean ====
section
/-! SUPPORT. What the pixel algorithm and the sprite evaluation can do (R109 to R114). -/

namespace Sys2Proof.Machine

/-- Nametable fetches are in `0x2000-0x2FFF` (R110). -/
theorem nametableAddr_lt (v : BitVec 15) : nametableAddr v < 0x4000#16 := by
  rw [BitVec.lt_def]
  simp only [nametableAddr, BitVec.toNat_or, BitVec.toNat_and]
  exact Nat.or_lt_two_pow (n := 14) (by decide) (lt_of_le_of_lt Nat.and_le_right (by decide))

/-- Attribute fetches are below `0x4000` (R110). -/
theorem attributeAddr_lt (v : BitVec 15) : attributeAddr v < 0x4000#16 := by
  rw [BitVec.lt_def]
  simp only [attributeAddr, BitVec.toNat_or, BitVec.toNat_and]
  refine Nat.or_lt_two_pow (n := 14) (Nat.or_lt_two_pow (Nat.or_lt_two_pow (by decide) ?_) ?_) ?_
  all_goals exact lt_of_le_of_lt Nat.and_le_right (by decide)

/-- Pattern rows of a page lie in the pattern tables (R63). -/
theorem patternAddr_toNat (page : BitVec 1) (tile : Byte) (row : Nat) (h : row < 16) :
    (patternAddr page tile row).toNat = 0x1000 * page.toNat + 16 * tile.toNat + row := by
  have h1 := page.isLt
  have h2 := tile.isLt
  simp only [patternAddr, BitVec.toNat_ofNat]
  omega

theorem longPatternAddr_toNat (tile : Byte) (row : Nat) :
    (longPatternAddr tile row).toNat
      = 0x1000 * (tile.toNat % 2) + 32 * (tile.toNat / 2) + row % 8 + 16 * (row / 8 % 2) := by
  have h2 := tile.isLt
  simp only [longPatternAddr, BitVec.toNat_ofNat, BitVec.extractLsb'_toNat, BitVec.toNat_ushiftRight,
    Nat.shiftRight_eq_div_pow, Nat.pow_zero, Nat.div_one, Nat.pow_one]
  omega

/-- A pattern pixel whose row is in the pattern tables does not fault in a fixed-mapping session. -/
theorem patternPixel_fixed {s : State} (hs : s.FixedSession) {pa : Addr} (h : pa.toNat + 8 < 0x4000) (bit : Nat) :
    ∃ p, patternPixel s pa bit = .ok p := by
  obtain ⟨d0, h0⟩ := pbRead_fixed hs (a := pa) (by rw [BitVec.lt_def]; simp only [BitVec.toNat_ofNat]; omega)
  obtain ⟨d1, h1⟩ := pbRead_fixed hs (a := pa + 8#16)
    (by rw [BitVec.lt_def, BitVec.toNat_add]; simp only [BitVec.toNat_ofNat]; omega)
  exact ⟨patternBits d1 d0 bit, by simp [patternPixel, h0, h1]; rfl⟩

/-- The background never faults in a fixed-mapping session (R87, R110). -/
theorem background_fixed {s : State} (hs : s.FixedSession) (x : Nat) : ∃ p, background s x = .ok p := by
  unfold background
  split
  · exact ⟨_, rfl⟩
  · obtain ⟨tile, h1⟩ := pbRead_fixed hs (nametableAddr_lt s.ppu.v)
    have hrow := (fineY s.ppu.v).isLt
    obtain ⟨p, h2⟩ := patternPixel_fixed hs (pa := patternAddr s.ppu.bgPage tile (fineY s.ppu.v).toNat)
      (by
        rw [patternAddr_toNat _ _ _ (by omega)]
        have := s.ppu.bgPage.isLt
        have := tile.isLt
        omega) (7 - tileColumn s.ppu x)
    obtain ⟨a, h3⟩ := pbRead_fixed hs (attributeAddr_lt s.ppu.v)
    simp only [bind, Except.bind, h1, h2, h3]
    exact ⟨_, rfl⟩

/-- The row of a sprite is below its height (R111, D6). -/
theorem spriteRow_lt (e : SpriteEntry) {h : Nat} (hp : 0 < h) (y : Nat) : spriteRow e h y < h := by
  unfold spriteRow
  have h1 := Int.emod_nonneg ((y : Int) - ((e.y + 1#8).toNat : Int)) (b := (h : Int)) (by omega)
  have h2 := Int.emod_lt_of_pos ((y : Int) - ((e.y + 1#8).toNat : Int)) (b := (h : Int)) (by omega)
  omega

theorem spriteHeight_cases (l : Bool) : spriteHeight l = 16 ∨ spriteHeight l = 8 := by
  cases l <;> simp [spriteHeight]

/-- The sprite pattern never faults in a fixed-mapping session (R87, R111). -/
theorem spritePattern_fixed {s : State} (hs : s.FixedSession) (e : SpriteEntry) (x y : Nat) :
    ∃ p, spritePattern s e x y = .ok p := by
  unfold spritePattern
  apply patternPixel_fixed hs
  have hlt : flippedRow e (spriteHeight s.ppu.longSprites) (spriteRow e (spriteHeight s.ppu.longSprites) y)
      < spriteHeight s.ppu.longSprites := by
    have hp : 0 < spriteHeight s.ppu.longSprites := by
      rcases spriteHeight_cases s.ppu.longSprites with h | h <;> omega
    have := spriteRow_lt e hp y
    unfold flippedRow
    split <;> omega
  have := e.tile.isLt
  unfold spritePatternAddr
  split
  · rw [longPatternAddr_toNat]
    omega
  · rename_i hl
    have hh : spriteHeight s.ppu.longSprites = 8 := by simp [spriteHeight, hl]
    rw [patternAddr_toNat _ _ _ (by omega)]
    have := s.ppu.sprPage.isLt
    omega

theorem scanSprites_fixed {s : State} (hs : s.FixedSession) (x y : Nat) (l : List (Fin 64)) :
    ∃ r, scanSprites s x y l = .ok r := by
  induction l with
  | nil => exact ⟨_, rfl⟩
  | cons i l ih =>
    unfold scanSprites
    simp only
    split
    · exact ih
    · obtain ⟨p, hp⟩ := spritePattern_fixed hs (spriteEntry s.ppu.oam i) x y
      rw [hp]
      simp only
      split
      · split
        · exact ⟨_, rfl⟩
        · exact ih
      · exact ⟨_, rfl⟩

/-- The sprite scan never faults in a fixed-mapping session (R87, R111). -/
theorem sprites_fixed {s : State} (hs : s.FixedSession) (x y : Nat) : ∃ r, sprites s x y = .ok r := by
  unfold sprites
  split
  · exact ⟨_, rfl⟩
  · exact scanSprites_fixed hs x y _

/-- The sprite that decides a column is one of the list, and its pixel is opaque (R111). -/
theorem scanSprites_some {s : State} {x y : Nat} {l : List (Fin 64)} {i : Fin 64} {px : Pixel}
    (h : scanSprites s x y l = .ok (some (i, px))) : i ∈ l ∧ px.isOpaque = true := by
  induction l with
  | nil => simp [scanSprites] at h
  | cons j l ih =>
    unfold scanSprites at h
    simp only at h
    split at h
    · exact ⟨List.mem_cons_of_mem _ (ih h).1, (ih h).2⟩
    · split at h
      · cases h
      · split at h
        · split at h
          · cases h
          · exact ⟨List.mem_cons_of_mem _ (ih h).1, (ih h).2⟩
        · simp only [Except.ok.injEq, Option.some.injEq, Prod.mk.injEq] at h
          obtain ⟨rfl, rfl⟩ := h
          exact ⟨List.mem_cons_self, rfl⟩

/-- The pixel of the sprites at a column (R111). -/
def spritePixel (scan : Option (Fin 64 × Pixel)) : Pixel :=
  match scan with
  | none => Pixel.clear
  | some (_, px) => px

/-- Whether the sprites at a column set the hit (R112). -/
def spriteHit (p : Ppu) (bg : Pixel) (scan : Option (Fin 64 × Pixel)) : Bool :=
  match scan with
  | none => false
  | some (i, _) => sprZeroHitBy p i bg.isOpaque

/-- What the pixel does (R109): one frame-buffer entry, and the hit of R112. -/
theorem pixel_eq {s : State} {x y : Nat} {bg : Pixel} {scan : Option (Fin 64 × Pixel)}
    (hb : background s x = .ok bg) (hs : sprites s x y = .ok scan) :
    pixel s x y = .ok (putPixel s.ppu x y
      (colorOf s.par (Memory.read s.pb.palette
        (palIndex s.par.paletteAlias (selectIndex bg (spritePixel scan))).toNat))
      (spriteHit s.ppu bg scan)) := by
  unfold pixel
  rw [hb]
  simp only [bind, Except.bind]
  rw [hs]
  simp only [pbReadPalette_ok, spritePixel, spriteHit]
  rfl

/-- Whatever happens, a pixel writes one frame-buffer entry and may set the hit. -/
theorem pixel_ok {s : State} {x y : Nat} {q : Ppu} (h : pixel s x y = .ok q) :
    ∃ c hit, q = putPixel s.ppu x y c hit := by
  unfold pixel at h
  simp only [bind, Except.bind] at h
  split at h
  · cases h
  · split at h
    · cases h
    · rw [pbReadPalette_ok] at h
      simp only [pure, Except.pure, Except.ok.injEq] at h
      exact ⟨_, _, h.symm⟩

/-- The pixel never faults in a fixed-mapping session (R87). -/
theorem pixel_fixed {s : State} (hs : s.FixedSession) (x y : Nat) :
    ∃ c hit, pixel s x y = .ok (putPixel s.ppu x y c hit) := by
  obtain ⟨bg, hb⟩ := background_fixed hs x
  obtain ⟨scan, hsc⟩ := sprites_fixed hs x y
  exact ⟨_, _, pixel_eq hb hsc⟩

/-- The list of an evaluation has at most eight sprites, in increasing order (R114, R29). -/
theorem evaluateSprites_ok (p : Ppu) (line : Nat) :
    (evaluateSprites p line).length ≤ 8 ∧ (evaluateSprites p line).Pairwise (· < ·) := by
  unfold evaluateSprites
  refine ⟨by simp [List.length_take], ?_⟩
  exact ((List.pairwise_lt_finRange 64).filter _).sublist (List.take_sublist _ _)

end Sys2Proof.Machine
end

