-- ==== Sys2Proof/Laws/Cycle.lean ====
section
/-! SUPPORT. What the per-dot step can do (R87 to R108). -/

namespace Sys2Proof.Machine

/-- The PPU fields that no `cycle()` writes (R87 to R114). -/
structure CycleFrame (p q : Ppu) : Prop where
  t : q.t = p.t
  fineX : q.fineX = p.fineX
  firstWrite : q.firstWrite = p.firstWrite
  generateInterrupt : q.generateInterrupt = p.generateInterrupt
  longSprites : q.longSprites = p.longSprites
  bgPage : q.bgPage = p.bgPage
  sprPage : q.sprPage = p.sprPage
  increment : q.increment = p.increment
  greyscale : q.greyscale = p.greyscale
  showBackground : q.showBackground = p.showBackground
  showSprites : q.showSprites = p.showSprites
  hideEdgeBackground : q.hideEdgeBackground = p.hideEdgeBackground
  hideEdgeSprites : q.hideEdgeSprites = p.hideEdgeSprites
  oam : q.oam = p.oam
  oamAddr : q.oamAddr = p.oamAddr
  readBuffer : q.readBuffer = p.readBuffer

theorem CycleFrame.refl (p : Ppu) : CycleFrame p p := by constructor <;> rfl

theorem CycleFrame.trans {p q r : Ppu} (h : CycleFrame p q) (k : CycleFrame q r) : CycleFrame p r where
  t := k.t.trans h.t
  fineX := k.fineX.trans h.fineX
  firstWrite := k.firstWrite.trans h.firstWrite
  generateInterrupt := k.generateInterrupt.trans h.generateInterrupt
  longSprites := k.longSprites.trans h.longSprites
  bgPage := k.bgPage.trans h.bgPage
  sprPage := k.sprPage.trans h.sprPage
  increment := k.increment.trans h.increment
  greyscale := k.greyscale.trans h.greyscale
  showBackground := k.showBackground.trans h.showBackground
  showSprites := k.showSprites.trans h.showSprites
  hideEdgeBackground := k.hideEdgeBackground.trans h.hideEdgeBackground
  hideEdgeSprites := k.hideEdgeSprites.trans h.hideEdgeSprites
  oam := k.oam.trans h.oam
  oamAddr := k.oamAddr.trans h.oamAddr
  readBuffer := k.readBuffer.trans h.readBuffer

theorem advance_frame (par : Params) (e : Bool) (p : Ppu) : CycleFrame p (advance par e p) := by
  unfold advance
  split <;> constructor <;> rfl

theorem horizontalCopy_frame (par : Params) (p : Ppu) : CycleFrame p (horizontalCopy par p) := by
  unfold horizontalCopy
  split <;> constructor <;> rfl

theorem verticalCopy_frame (par : Params) (p : Ppu) : CycleFrame p (verticalCopy par p) := by
  unfold verticalCopy
  split <;> constructor <;> rfl

theorem preRenderAction_frame (par : Params) (p : Ppu) : CycleFrame p (preRenderAction par p) := by
  unfold preRenderAction
  split
  · constructor <;> rfl
  · split
    · exact horizontalCopy_frame par p
    · split
      · exact verticalCopy_frame par p
      · exact CycleFrame.refl p

theorem preRenderDot_frame (par : Params) (p : Ppu) : CycleFrame p (preRenderDot par p) := by
  unfold preRenderDot
  simp only
  split
  · refine (preRenderAction_frame par p).trans (CycleFrame.trans ?_ (advance_frame par true _))
    constructor <;> rfl
  · exact (preRenderAction_frame par p).trans (advance_frame par false _)

theorem coarseStep_frame (p : Ppu) (x : Nat) : CycleFrame p (coarseStep p x) := by
  unfold coarseStep
  split <;> constructor <;> rfl

theorem putPixel_frame (p : Ppu) (x y : Nat) (c : Color) (hit : Bool) : CycleFrame p (putPixel p x y c hit) := by
  constructor <;> rfl

theorem renderLineEnd_frame (p : Ppu) : CycleFrame p (renderLineEnd p) := by constructor <;> rfl

/-- What a Render action may do (R94 to R96): a pixel and the coarse step, or a change of `v` alone, or nothing. -/
theorem renderAction_ok {s : State} {q : Ppu} (h : renderAction s = .ok q) :
    (1#9 ≤ s.ppu.dot ∧ s.ppu.dot ≤ 256#9 ∧ ∃ c hit, q = coarseStep
        (putPixel s.ppu (s.ppu.dot.toNat - 1) s.ppu.scanline.toNat c hit) (s.ppu.dot.toNat - 1))
      ∨ ∃ v, q = { s.ppu with v := v } := by
  unfold renderAction at h
  simp only at h
  split at h
  · rename_i hd
    split at h
    · cases h
    · rename_i r hr
      obtain ⟨c, hit, rfl⟩ := pixel_ok hr
      simp only [Except.ok.injEq] at h
      exact .inl ⟨hd.1, hd.2, c, hit, h.symm⟩
  · right
    split at h
    · simp only [Except.ok.injEq] at h
      split at h
      · exact ⟨_, h.symm⟩
      · exact ⟨s.ppu.v, h.symm⟩
    · split at h
      · simp only [Except.ok.injEq] at h
        unfold horizontalCopy at h
        split at h
        · exact ⟨_, h.symm⟩
        · exact ⟨s.ppu.v, h.symm⟩
      · simp only [Except.ok.injEq] at h
        exact ⟨s.ppu.v, h.symm⟩

theorem renderAction_frame {s : State} {q : Ppu} (h : renderAction s = .ok q) : CycleFrame s.ppu q := by
  rcases renderAction_ok h with ⟨-, -, c, hit, rfl⟩ | ⟨v, rfl⟩
  · exact (putPixel_frame s.ppu _ _ c hit).trans (coarseStep_frame _ _)
  · constructor <;> rfl

/-- The position is where it was during a Render action. -/
theorem renderAction_position {s : State} {q : Ppu} (h : renderAction s = .ok q) :
    q.phase = s.ppu.phase ∧ q.scanline = s.ppu.scanline ∧ q.dot = s.ppu.dot ∧ q.evenFrame = s.ppu.evenFrame
      ∧ q.vblank = s.ppu.vblank ∧ q.lineSprites = s.ppu.lineSprites := by
  rcases renderAction_ok h with ⟨-, -, c, hit, rfl⟩ | ⟨v, rfl⟩
  · unfold coarseStep
    split <;> simp
  · simp

theorem renderDot_frame {s : State} {q : Ppu} (h : renderDot s = .ok q) : CycleFrame s.ppu q := by
  unfold renderDot at h
  split at h
  · cases h
  · rename_i p hp
    simp only [Except.ok.injEq] at h
    rw [← h]
    split
    · exact (renderAction_frame hp).trans ((renderLineEnd_frame p).trans (advance_frame _ _ _))
    · exact (renderAction_frame hp).trans (advance_frame _ _ _)

theorem postRenderDot_frame (par : Params) (p : Ppu) : CycleFrame p (postRenderDot par p) := by
  unfold postRenderDot
  split
  · refine CycleFrame.trans ?_ (advance_frame par true _)
    constructor <;> rfl
  · exact advance_frame par false p

theorem vblankDot_frame (par : Params) (p : Ppu) : CycleFrame p (vblankDot par p) := by
  have h : CycleFrame p (if vblankStarts p then setVblank p else p) := by
    split <;> constructor <;> rfl
  unfold vblankDot
  generalize (if vblankStarts p then setVblank p else p) = q at h ⊢
  simp only
  split
  · refine h.trans (CycleFrame.trans ?_ (advance_frame par true _))
    unfold vblankLineEnd
    split <;> constructor <;> rfl
  · exact h.trans (advance_frame par false _)

/-- No `cycle()` writes the port registers, OAM or the read buffer. -/
theorem dotStep_frame {s : State} {q : Ppu} (h : dotStep s = .ok q) : CycleFrame s.ppu q := by
  unfold dotStep at h
  split at h
  · simp only [Except.ok.injEq] at h
    exact h ▸ preRenderDot_frame _ _
  · exact renderDot_frame h
  · simp only [Except.ok.injEq] at h
    exact h ▸ postRenderDot_frame _ _
  · simp only [Except.ok.injEq] at h
    exact h ▸ vblankDot_frame _ _

/-- What a `cycle()` that answers a next state did (R87, R146). -/
theorem execCycle_next {s t : State} (h : execCycle s = .next t) :
    s.Alive ∧ ∃ p, dotStep s = .ok p ∧
      (emitsInterrupt s.ppu = true ∧ t = { s with
          ppu := p
          out := { s.out with nmiCount := s.out.nmiCount + 1 }
          result := .interrupt }
        ∨ emitsInterrupt s.ppu = false ∧ t = { s with ppu := p, result := .nothing }) := by
  unfold execCycle at h
  obtain ⟨ha, h⟩ := live_next h
  refine ⟨ha, ?_⟩
  split at h
  · cases h
  · rename_i p hp
    refine ⟨p, hp, ?_⟩
    split at h
    · rename_i he
      exact .inl ⟨he, (finish_next.mp h).symm⟩
    · rename_i he
      exact .inr ⟨by simpa using he, (finish_next.mp h).symm⟩

/-- No dot faults in a fixed-mapping session (R87). -/
theorem dotStep_fixed {s : State} (hs : s.FixedSession) : ∃ p, dotStep s = .ok p := by
  unfold dotStep
  split
  · exact ⟨_, rfl⟩
  · unfold renderDot
    have : ∃ q, renderAction s = .ok q := by
      unfold renderAction
      simp only
      split
      · obtain ⟨c, hit, h⟩ := pixel_fixed hs (s.ppu.dot.toNat - 1) s.ppu.scanline.toNat
        rw [h]
        exact ⟨_, rfl⟩
      · split
        · exact ⟨_, rfl⟩
        · split <;> exact ⟨_, rfl⟩
    obtain ⟨q, hq⟩ := this
    rw [hq]
    exact ⟨_, rfl⟩
  · exact ⟨_, rfl⟩
  · exact ⟨_, rfl⟩

end Sys2Proof.Machine
end

