-- ==== Sys2Proof/Laws/Exec.lean ====
section
/-! SUPPORT. What each shape of operation did when it answers a next state: the one lemma later proofs cite. -/

namespace Sys2Proof.Machine

/-- What a port write that only changes PPU state did. -/
theorem ppuWrite_next {s t : State} {p : Ppu} (h : ppuWrite s p = .next t) :
    s.Alive ∧ t = { s with ppu := p, result := .nothing } := by
  obtain ⟨ha, h⟩ := live_next h
  exact ⟨ha, (finish_next.mp h).symm⟩

/-- What a read of a write-only port did (R86). -/
theorem openRead_next {s t : State} (h : openRead s = .next t) :
    s.Alive ∧ t = { s with draws := s.draws + 1, result := .byte (Config.openRead s.draws) } := by
  obtain ⟨ha, h⟩ := live_next h
  exact ⟨ha, (finish_next.mp h).symm⟩

/-- What a PictureBus read did (R132). -/
theorem busRead_next {s t : State} {a : Addr} (h : busRead s a = .next t) :
    s.Alive ∧ ∃ d, pbRead s a = .ok d ∧ t = { s with result := .byte d } := by
  obtain ⟨ha, h⟩ := live_next h
  split at h
  · rename_i d hd
    exact ⟨ha, d, hd, (finish_next.mp h).symm⟩
  · cases h

/-- What a PictureBus write did (R133). -/
theorem busWrite_next {s t : State} {a : Addr} {b : Byte} (h : busWrite s a b = .next t) :
    s.Alive ∧ ∃ u, pbWrite s a b = .ok u ∧ t = { u with result := .nothing } := by
  obtain ⟨ha, h⟩ := live_next h
  obtain ⟨u, hu, rfl⟩ := finishOr_next h
  exact ⟨ha, u, hu, rfl⟩

/-- A PictureBus access at `0x4000` or above faults (R68 f, R132). -/
theorem busRead_outOfDomain {s : State} (ha : s.Alive) {a : Addr} (h : 0x4000#16 ≤ a) :
    busRead s a = .fault .busOutOfDomain := by
  rw [busRead, live_of_alive ha, pbRead_outOfDomain h]

theorem busWrite_outOfDomain {s : State} (ha : s.Alive) {a : Addr} {b : Byte} (h : 0x4000#16 ≤ a) :
    busWrite s a b = .fault .busOutOfDomain := by
  rw [busWrite, live_of_alive ha, pbWrite_outOfDomain h, finishOr_error]

/-- What a direct palette read did (R134). -/
theorem execPbRdpal_next {s t : State} {i : BitVec 5} (h : execPbRdpal i s = .next t) :
    s.Alive ∧ ∃ d, t = { s with result := .byte d } := by
  obtain ⟨ha, h⟩ := live_next h
  split at h
  · exact ⟨ha, _, (finish_next.mp h).symm⟩
  · cases h

/-- A CPU address of the PRG window is in the mapper's domain (R123). -/
theorem prgWindowAddr_inDomain (a : BitVec 15) : ¬prgWindowAddr a < 0x8000#16 := by
  unfold prgWindowAddr
  simp only [BitVec.lt_def, BitVec.toNat_append]
  rw [Nat.shiftLeft_eq, Nat.mul_comm, ← Nat.two_pow_add_eq_or_of_lt a.isLt]
  simp

/-- A CPU read of the PRG window in a session of another variant (R117, R118). -/
theorem execPrgR_variant {s : State} {n : Nat} {st : VariantState} (ha : s.Alive) (h : s.mapper = .variant n st)
    (a : BitVec 15) : execPrgR a s = prgReadOutcome s n st a := by
  rw [execPrgR, live_of_alive ha, readPRG, if_neg (prgWindowAddr_inDomain a)]
  simp only [romRead, prgOffset, h, prgReadOutcome]
  split <;> rename_i h1 <;> split at h1 <;> simp_all [finish]

/-- A pattern-table read in a session of another variant (R117, R120). -/
theorem execPbPatR_variant {s : State} {n : Nat} {st : VariantState} (ha : s.Alive) (h : s.mapper = .variant n st)
    (a : BitVec 13) : execPbPatR a s = chrReadOutcome s n st a := by
  have lt : (0#3 ++ a : Addr) < 0x2000#16 := by
    simp only [BitVec.lt_def, BitVec.toNat_append]
    have := a.isLt
    simp
    omega
  rw [execPbPatR, busRead, live_of_alive ha, pbRead_pattern lt, readCHR, if_neg (by bv_omega)]
  simp only [h, chrReadOutcome, romRead, chrRamSize]
  cases (Config.mapperVariant n).chrTarget s.cart st (0#3 ++ a) with
  | rom offset => by_cases ho : offset < s.cart.chr.size <;> simp [ho, finish, h]
  | ram offset => by_cases ho : offset < 8192 <;> simp [ho, finish, h]

/-- What a CPU read of the PRG window did (R118). -/
theorem execPrgR_next {s t : State} {a : BitVec 15} (h : execPrgR a s = .next t) :
    s.Alive ∧ ∃ d, readPRG s (prgWindowAddr a) = .ok d ∧ t = { s with result := .byte d } := by
  obtain ⟨ha, h⟩ := live_next h
  split at h
  · rename_i d hd
    exact ⟨ha, d, hd, (finish_next.mp h).symm⟩
  · cases h

/-- What a CPU write of the PRG window did (R119). -/
theorem execPrgW_next {s t : State} {a : BitVec 15} {b : Byte} (h : execPrgW a b s = .next t) :
    s.Alive ∧ ∃ u, writePRG s (prgWindowAddr a) b = .ok u ∧ t = { u with result := .nothing } := by
  obtain ⟨ha, h⟩ := live_next h
  obtain ⟨u, hu, rfl⟩ := finishOr_next h
  exact ⟨ha, u, hu, rfl⟩

/-- What a status read did (R76). -/
theorem execPpustatusR_next {s t : State} {m : BitVec 10} (h : execPpustatusR m s = .next t) :
    s.Alive ∧ t = { s with ppu := statusReadEffect s.ppu, result := .byte (statusByte s.ppu) } := by
  obtain ⟨ha, h⟩ := live_next h
  exact ⟨ha, (finish_next.mp h).symm⟩

/-- What an OAM data read did (R79). -/
theorem execOamdataR_next {s t : State} {m : BitVec 10} (h : execOamdataR m s = .next t) :
    s.Alive ∧ t = { s with result := .byte (Memory.read s.ppu.oam s.ppu.oamAddr.toNat) } := by
  obtain ⟨ha, h⟩ := live_next h
  exact ⟨ha, (finish_next.mp h).symm⟩

/-- What a VRAM data read did (R83). -/
theorem execPpudataR_next {s t : State} {m : BitVec 10} (h : execPpudataR m s = .next t) :
    s.Alive ∧ ∃ d, pbRead s (vBusAddr s.ppu.v) = .ok d ∧ t = { s with
      ppu := (dataReadEffect s.par s.ppu (vBusAddr s.ppu.v) d).1
      result := .byte (dataReadEffect s.par s.ppu (vBusAddr s.ppu.v) d).2 } := by
  obtain ⟨ha, h⟩ := live_next h
  split at h
  · cases h
  · rename_i d hd
    exact ⟨ha, d, hd, (finish_next.mp h).symm⟩

/-- A data read changes only `v` and the read buffer (R83). -/
theorem dataReadEffect_fields (par : Params) (p : Ppu) (a : Addr) (d : Byte) :
    ∃ rb, (dataReadEffect par p a d).1 = { incV p with readBuffer := rb } := by
  unfold dataReadEffect
  simp only
  split
  · exact ⟨d, rfl⟩
  · exact ⟨p.readBuffer, rfl⟩

/-- What a VRAM data write did (R84). -/
theorem execPpudataW_next {s t : State} {m : BitVec 10} {b : Byte} (h : execPpudataW m b s = .next t) :
    s.Alive ∧ ∃ u, pbWrite s (vBusAddr s.ppu.v) b = .ok u
      ∧ t = { u with ppu := incV s.ppu, result := .nothing } := by
  obtain ⟨ha, h⟩ := live_next h
  split at h
  · cases h
  · rename_i u hu
    refine ⟨ha, u, hu, ?_⟩
    rw [← (pbWrite_frame hu).ppu]
    exact (finish_next.mp h).symm

/-- What a DMA did (R85): OAM is a copy from the cursor of the page supplied. -/
theorem execOamdmaW_next {s t : State} {n : Byte} (h : execOamdmaW n s = .next t) :
    s.Alive ∧
      ((0x80#8 ≤ n ∧ ∃ src, getPagePtr s (n ++ 0#8) = .ok src
          ∧ t = { s with ppu := { s.ppu with oam := dmaOam s.ppu.oamAddr src }, result := .nothing })
        ∨ (n < 0x80#8 ∧ t = { s with
            ppu := { s.ppu with oam := dmaOam s.ppu.oamAddr (Config.cpuPage s.draws n) }
            draws := s.draws + 1
            result := .nothing })) := by
  obtain ⟨ha, h⟩ := live_next h
  refine ⟨ha, ?_⟩
  split at h
  · rename_i hn
    split at h
    · cases h
    · rename_i src hsrc
      exact .inl ⟨hn, src, hsrc, (finish_next.mp h).symm⟩
  · rename_i hn
    exact .inr ⟨by bv_omega, (finish_next.mp h).symm⟩

/-- What a strobe write did (R138, R140). -/
theorem execCtrlStrobeW_next {s t : State} {b : Byte} (h : execCtrlStrobeW b s = .next t) :
    s.Alive ∧ t = { s with ctrl1 := strobe s.ctrl1 b, ctrl2 := strobe s.ctrl2 b, result := .nothing } := by
  obtain ⟨ha, h⟩ := live_next h
  exact ⟨ha, (finish_next.mp h).symm⟩

/-- What a read of controller 1 did (R139, R140). -/
theorem execCtrl1R_next {s t : State} (h : execCtrl1R s = .next t) :
    s.Alive ∧ t = { s with ctrl1 := serialShift s.ctrl1, result := .byte (serialByte s.ctrl1) } := by
  obtain ⟨ha, h⟩ := live_next h
  exact ⟨ha, (finish_next.mp h).symm⟩

/-- What a read of controller 2 did (R139, R140). -/
theorem execCtrl2R_next {s t : State} (h : execCtrl2R s = .next t) :
    s.Alive ∧ t = { s with ctrl2 := serialShift s.ctrl2, result := .byte (serialByte s.ctrl2) } := by
  obtain ⟨ha, h⟩ := live_next h
  exact ⟨ha, (finish_next.mp h).symm⟩

/-- What a write of controller 1's buttons did (R137). -/
theorem execButtons1_next {s t : State} {b : Byte} (h : execButtons1 b s = .next t) :
    s.Alive ∧ t = { s with ctrl1 := { s.ctrl1 with buttons := b }, result := .nothing } := by
  obtain ⟨ha, h⟩ := live_next h
  exact ⟨ha, (finish_next.mp h).symm⟩

/-- What a write of controller 2's buttons did (R137). -/
theorem execButtons2_next {s t : State} {b : Byte} (h : execButtons2 b s = .next t) :
    s.Alive ∧ t = { s with ctrl2 := { s.ctrl2 with buttons := b }, result := .nothing } := by
  obtain ⟨ha, h⟩ := live_next h
  exact ⟨ha, (finish_next.mp h).symm⟩

/-- What a reset did (R159). -/
theorem execReset_next {s t : State} (h : execReset s = .next t) :
    s.Alive ∧ t = { s with ppu := resetPpu s.par s.ppu, result := .nothing } := by
  obtain ⟨ha, h⟩ := live_next h
  exact ⟨ha, (finish_next.mp h).symm⟩

/-- What a frame-buffer readout did (R156): the entry, or the refusal of a position outside the picture. -/
theorem execFbread_next {s t : State} {x y : Nat} (h : execFbread x y s = .next t) :
    s.Alive ∧
      ((x ≤ 255 ∧ y ≤ 239 ∧ t = { s with result := .color (fbRead s.ppu.fb x y) })
        ∨ (¬(x ≤ 255 ∧ y ≤ 239) ∧ t = { s with
            out := { s.out with refused := s.out.refused.or (some .noSuchPixel) }
            result := .refused .noSuchPixel })) := by
  obtain ⟨ha, h⟩ := live_next h
  refine ⟨ha, ?_⟩
  split at h
  · rename_i hx
    exact .inr ⟨by omega, (finish_next.mp h).symm⟩
  · rename_i hx
    exact .inl ⟨by omega, by omega, (finish_next.mp h).symm⟩

/-- What a step did (R5, R67): the driver made no call, or its next call was decoded and run. -/
theorem step_next {s t : State} (h : step s = .next t) :
    s.Alive ∧
      ((s.schedule = [] ∧ t = s)
        ∨ ∃ c rest, s.schedule = c :: rest ∧
          ((∃ i, decode c = .instr i ∧ exec i { s with schedule := rest } = .next t)
            ∨ ∃ r, decode c = .refused r ∧ t = { s with
                schedule := rest
                out := { s.out with refused := s.out.refused.or (some r) }
                result := .refused r })) := by
  unfold step at h
  split at h
  · rename_i hf
    obtain ⟨ha, h⟩ := live_next h
    refine ⟨ha, .inl ⟨?_, by simpa using h.symm⟩⟩
    unfold fetch at hf
    split at hf
    · assumption
    · cases hf
  · rename_i c u hf
    obtain ⟨rest, hs, rfl⟩ := fetch_some hf
    have key : ∀ {k : Outcome}, live { s with schedule := rest } k = .next t → s.Alive := fun hk => (live_next hk).1
    split at h
    · rename_i i hd
      have ha : s.Alive := by
        by_contra hne
        unfold State.Alive at hne
        obtain ⟨r, hr⟩ := Option.ne_none_iff_exists'.mp hne
        have : ∀ k : Outcome, live { s with schedule := rest } k = .fault r := fun k => live_of_faulted hr
        cases i <;>
          simp [exec, execPpuctrlW, execPpuctrlR, execPpumaskW, execPpumaskR, execPpustatusR, execPpustatusW,
            execOamaddrW, execOamaddrR, execOamdataR, execOamdataW, execPpuscrollW, execPpuscrollR, execPpuaddrW,
            execPpuaddrR, execPpudataR, execPpudataW, execOamdmaW, execOamdmaR, execCtrlStrobeW, execCtrl1R, execCtrl2R,
            execPrgR, execPrgW, execPbPatR, execPbNtR, execPbNtR3000, execPbNtR3800, execPbNtR3C00, execPbNtR3E00,
            execPbPalR, execPbOodR, execPbOodR8000, execPbPatW, execPbNtW, execPbNtW3000, execPbNtW3800, execPbNtW3C00,
            execPbNtW3E00, execPbPalW, execPbOodW, execPbOodW8000, execPbRdpal, execCycle, execReset, execButtons1,
            execButtons2, execFbread, ppuWrite, openRead, busRead, busWrite, this] at h
      exact ⟨ha, .inr ⟨c, rest, hs, .inl ⟨i, hd, h⟩⟩⟩
    · rename_i r hd
      exact ⟨key h, .inr ⟨c, rest, hs, .inr ⟨r, hd, by
        have := (live_next h).2
        rw [refuse_eq] at this
        simpa using this.symm⟩⟩⟩
    · exact absurd (live_next h).2 (by simp)

end Sys2Proof.Machine
end

