-- ==== Sys2Proof/Laws/PerInstr.lean ====
section
/-! SUPPORT. One statement for each operation (R67): the transaction word the encoder gives it meets the match and the
mask of its own row of spec/opcode_table.json. -/

namespace Sys2Proof.Laws.TableRow

/-- The word of `i` meets the row of spec/opcode_table.json that has its mnemonic (R67). -/
def Statement (i : Instr) : Prop :=
  ∃ row ∈ opcodeRows, row.mnemonic = i.mnemonic ∧ (encode i).tw &&& row.mask = row.pattern

/-- Two words agree when their bits do. -/
theorem eq_of_bits {x y : BitVec 20} (h : ∀ k : Fin 20, x.getLsbD k = y.getLsbD k) : x = y :=
  BitVec.eq_of_getLsbD_eq fun k hk => h ⟨k, hk⟩

theorem ppuctrlW (mirror : BitVec 10) (b : Byte) : Statement (.ppuctrlW mirror b) := by
  refine ⟨⟨"PPUCTRL_W", 0x12000#20, 0xFE007#20⟩, by decide, rfl, eq_of_bits fun k => ?_⟩
  fin_cases k <;> (simp only [encode, callData, twOf, portAddr, BitVec.getLsbD_and, BitVec.getLsbD_append]; simp)

theorem ppuctrlR (mirror : BitVec 10) : Statement (.ppuctrlR mirror) := by
  refine ⟨⟨"PPUCTRL_R", 0x02000#20, 0xFE007#20⟩, by decide, rfl, eq_of_bits fun k => ?_⟩
  fin_cases k <;> (simp only [encode, callPlain, twOf, portAddr, BitVec.getLsbD_and, BitVec.getLsbD_append]; simp)

theorem ppumaskW (mirror : BitVec 10) (b : Byte) : Statement (.ppumaskW mirror b) := by
  refine ⟨⟨"PPUMASK_W", 0x12001#20, 0xFE007#20⟩, by decide, rfl, eq_of_bits fun k => ?_⟩
  fin_cases k <;> (simp only [encode, callData, twOf, portAddr, BitVec.getLsbD_and, BitVec.getLsbD_append]; simp)

theorem ppumaskR (mirror : BitVec 10) : Statement (.ppumaskR mirror) := by
  refine ⟨⟨"PPUMASK_R", 0x02001#20, 0xFE007#20⟩, by decide, rfl, eq_of_bits fun k => ?_⟩
  fin_cases k <;> (simp only [encode, callPlain, twOf, portAddr, BitVec.getLsbD_and, BitVec.getLsbD_append]; simp)

theorem ppustatusR (mirror : BitVec 10) : Statement (.ppustatusR mirror) := by
  refine ⟨⟨"PPUSTATUS_R", 0x02002#20, 0xFE007#20⟩, by decide, rfl, eq_of_bits fun k => ?_⟩
  fin_cases k <;> (simp only [encode, callPlain, twOf, portAddr, BitVec.getLsbD_and, BitVec.getLsbD_append]; simp)

theorem ppustatusW (mirror : BitVec 10) (b : Byte) : Statement (.ppustatusW mirror b) := by
  refine ⟨⟨"PPUSTATUS_W", 0x12002#20, 0xFE007#20⟩, by decide, rfl, eq_of_bits fun k => ?_⟩
  fin_cases k <;> (simp only [encode, callData, twOf, portAddr, BitVec.getLsbD_and, BitVec.getLsbD_append]; simp)

theorem oamaddrW (mirror : BitVec 10) (b : Byte) : Statement (.oamaddrW mirror b) := by
  refine ⟨⟨"OAMADDR_W", 0x12003#20, 0xFE007#20⟩, by decide, rfl, eq_of_bits fun k => ?_⟩
  fin_cases k <;> (simp only [encode, callData, twOf, portAddr, BitVec.getLsbD_and, BitVec.getLsbD_append]; simp)

theorem oamaddrR (mirror : BitVec 10) : Statement (.oamaddrR mirror) := by
  refine ⟨⟨"OAMADDR_R", 0x02003#20, 0xFE007#20⟩, by decide, rfl, eq_of_bits fun k => ?_⟩
  fin_cases k <;> (simp only [encode, callPlain, twOf, portAddr, BitVec.getLsbD_and, BitVec.getLsbD_append]; simp)

theorem oamdataR (mirror : BitVec 10) : Statement (.oamdataR mirror) := by
  refine ⟨⟨"OAMDATA_R", 0x02004#20, 0xFE007#20⟩, by decide, rfl, eq_of_bits fun k => ?_⟩
  fin_cases k <;> (simp only [encode, callPlain, twOf, portAddr, BitVec.getLsbD_and, BitVec.getLsbD_append]; simp)

theorem oamdataW (mirror : BitVec 10) (b : Byte) : Statement (.oamdataW mirror b) := by
  refine ⟨⟨"OAMDATA_W", 0x12004#20, 0xFE007#20⟩, by decide, rfl, eq_of_bits fun k => ?_⟩
  fin_cases k <;> (simp only [encode, callData, twOf, portAddr, BitVec.getLsbD_and, BitVec.getLsbD_append]; simp)

theorem ppuscrollW (mirror : BitVec 10) (b : Byte) : Statement (.ppuscrollW mirror b) := by
  refine ⟨⟨"PPUSCROLL_W", 0x12005#20, 0xFE007#20⟩, by decide, rfl, eq_of_bits fun k => ?_⟩
  fin_cases k <;> (simp only [encode, callData, twOf, portAddr, BitVec.getLsbD_and, BitVec.getLsbD_append]; simp)

theorem ppuscrollR (mirror : BitVec 10) : Statement (.ppuscrollR mirror) := by
  refine ⟨⟨"PPUSCROLL_R", 0x02005#20, 0xFE007#20⟩, by decide, rfl, eq_of_bits fun k => ?_⟩
  fin_cases k <;> (simp only [encode, callPlain, twOf, portAddr, BitVec.getLsbD_and, BitVec.getLsbD_append]; simp)

theorem ppuaddrW (mirror : BitVec 10) (b : Byte) : Statement (.ppuaddrW mirror b) := by
  refine ⟨⟨"PPUADDR_W", 0x12006#20, 0xFE007#20⟩, by decide, rfl, eq_of_bits fun k => ?_⟩
  fin_cases k <;> (simp only [encode, callData, twOf, portAddr, BitVec.getLsbD_and, BitVec.getLsbD_append]; simp)

theorem ppuaddrR (mirror : BitVec 10) : Statement (.ppuaddrR mirror) := by
  refine ⟨⟨"PPUADDR_R", 0x02006#20, 0xFE007#20⟩, by decide, rfl, eq_of_bits fun k => ?_⟩
  fin_cases k <;> (simp only [encode, callPlain, twOf, portAddr, BitVec.getLsbD_and, BitVec.getLsbD_append]; simp)

theorem ppudataR (mirror : BitVec 10) : Statement (.ppudataR mirror) := by
  refine ⟨⟨"PPUDATA_R", 0x02007#20, 0xFE007#20⟩, by decide, rfl, eq_of_bits fun k => ?_⟩
  fin_cases k <;> (simp only [encode, callPlain, twOf, portAddr, BitVec.getLsbD_and, BitVec.getLsbD_append]; simp)

theorem ppudataW (mirror : BitVec 10) (b : Byte) : Statement (.ppudataW mirror b) := by
  refine ⟨⟨"PPUDATA_W", 0x12007#20, 0xFE007#20⟩, by decide, rfl, eq_of_bits fun k => ?_⟩
  fin_cases k <;> (simp only [encode, callData, twOf, portAddr, BitVec.getLsbD_and, BitVec.getLsbD_append]; simp)

theorem oamdmaW (n : Byte) : Statement (.oamdmaW n) := by
  refine ⟨⟨"OAMDMA_W", 0x14014#20, 0xFFFFF#20⟩, by decide, rfl, eq_of_bits fun k => ?_⟩
  fin_cases k <;> (simp only [encode, callData, twOf, BitVec.getLsbD_and, BitVec.getLsbD_append]; simp)

theorem oamdmaR : Statement (.oamdmaR) := by
  refine ⟨⟨"OAMDMA_R", 0x04014#20, 0xFFFFF#20⟩, by decide, rfl, eq_of_bits fun k => ?_⟩
  fin_cases k <;> (simp only [encode, callPlain, twOf, BitVec.getLsbD_and, BitVec.getLsbD_append]; simp)

theorem ctrlStrobeW (b : Byte) : Statement (.ctrlStrobeW b) := by
  refine ⟨⟨"CTRL_STROBE_W", 0x14016#20, 0xFFFFF#20⟩, by decide, rfl, eq_of_bits fun k => ?_⟩
  fin_cases k <;> (simp only [encode, callData, twOf, BitVec.getLsbD_and, BitVec.getLsbD_append]; simp)

theorem ctrl1R : Statement (.ctrl1R) := by
  refine ⟨⟨"CTRL1_R", 0x04016#20, 0xFFFFF#20⟩, by decide, rfl, eq_of_bits fun k => ?_⟩
  fin_cases k <;> (simp only [encode, callPlain, twOf, BitVec.getLsbD_and, BitVec.getLsbD_append]; simp)

theorem ctrl2R : Statement (.ctrl2R) := by
  refine ⟨⟨"CTRL2_R", 0x04017#20, 0xFFFFF#20⟩, by decide, rfl, eq_of_bits fun k => ?_⟩
  fin_cases k <;> (simp only [encode, callPlain, twOf, BitVec.getLsbD_and, BitVec.getLsbD_append]; simp)

theorem prgR (a : BitVec 15) : Statement (.prgR a) := by
  refine ⟨⟨"PRG_R", 0x08000#20, 0xF8000#20⟩, by decide, rfl, eq_of_bits fun k => ?_⟩
  fin_cases k <;> (simp only [encode, callPlain, twOf, BitVec.getLsbD_and, BitVec.getLsbD_append]; simp)

theorem prgW (a : BitVec 15) (b : Byte) : Statement (.prgW a b) := by
  refine ⟨⟨"PRG_W", 0x18000#20, 0xF8000#20⟩, by decide, rfl, eq_of_bits fun k => ?_⟩
  fin_cases k <;> (simp only [encode, callData, twOf, BitVec.getLsbD_and, BitVec.getLsbD_append]; simp)

theorem pbPatR (a : BitVec 13) : Statement (.pbPatR a) := by
  refine ⟨⟨"PB_PAT_R", 0x40000#20, 0xFE000#20⟩, by decide, rfl, eq_of_bits fun k => ?_⟩
  fin_cases k <;> (simp only [encode, callPlain, twOf, BitVec.getLsbD_and, BitVec.getLsbD_append]; simp)

theorem pbNtR (a : BitVec 12) : Statement (.pbNtR a) := by
  refine ⟨⟨"PB_NT_R", 0x42000#20, 0xFF000#20⟩, by decide, rfl, eq_of_bits fun k => ?_⟩
  fin_cases k <;> (simp only [encode, callPlain, twOf, BitVec.getLsbD_and, BitVec.getLsbD_append]; simp)

theorem pbNtR3000 (a : BitVec 11) : Statement (.pbNtR3000 a) := by
  refine ⟨⟨"PB_NT_R.3000", 0x43000#20, 0xFF800#20⟩, by decide, rfl, eq_of_bits fun k => ?_⟩
  fin_cases k <;> (simp only [encode, callPlain, twOf, BitVec.getLsbD_and, BitVec.getLsbD_append]; simp)

theorem pbNtR3800 (a : BitVec 10) : Statement (.pbNtR3800 a) := by
  refine ⟨⟨"PB_NT_R.3800", 0x43800#20, 0xFFC00#20⟩, by decide, rfl, eq_of_bits fun k => ?_⟩
  fin_cases k <;> (simp only [encode, callPlain, twOf, BitVec.getLsbD_and, BitVec.getLsbD_append]; simp)

theorem pbNtR3C00 (a : BitVec 9) : Statement (.pbNtR3C00 a) := by
  refine ⟨⟨"PB_NT_R.3C00", 0x43C00#20, 0xFFE00#20⟩, by decide, rfl, eq_of_bits fun k => ?_⟩
  fin_cases k <;> (simp only [encode, callPlain, twOf, BitVec.getLsbD_and, BitVec.getLsbD_append]; simp)

theorem pbNtR3E00 (a : BitVec 8) : Statement (.pbNtR3E00 a) := by
  refine ⟨⟨"PB_NT_R.3E00", 0x43E00#20, 0xFFF00#20⟩, by decide, rfl, eq_of_bits fun k => ?_⟩
  fin_cases k <;> (simp only [encode, callPlain, twOf, BitVec.getLsbD_and, BitVec.getLsbD_append]; simp)

theorem pbPalR (a : BitVec 8) : Statement (.pbPalR a) := by
  refine ⟨⟨"PB_PAL_R", 0x43F00#20, 0xFFF00#20⟩, by decide, rfl, eq_of_bits fun k => ?_⟩
  fin_cases k <;> (simp only [encode, callPlain, twOf, BitVec.getLsbD_and, BitVec.getLsbD_append]; simp)

theorem pbOodR (a : BitVec 14) : Statement (.pbOodR a) := by
  refine ⟨⟨"PB_OOD_R", 0x44000#20, 0xFC000#20⟩, by decide, rfl, eq_of_bits fun k => ?_⟩
  fin_cases k <;> (simp only [encode, callPlain, twOf, BitVec.getLsbD_and, BitVec.getLsbD_append]; simp)

theorem pbOodR8000 (a : BitVec 15) : Statement (.pbOodR8000 a) := by
  refine ⟨⟨"PB_OOD_R.8000", 0x48000#20, 0xF8000#20⟩, by decide, rfl, eq_of_bits fun k => ?_⟩
  fin_cases k <;> (simp only [encode, callPlain, twOf, BitVec.getLsbD_and, BitVec.getLsbD_append]; simp)

theorem pbPatW (a : BitVec 13) (b : Byte) : Statement (.pbPatW a b) := by
  refine ⟨⟨"PB_PAT_W", 0x50000#20, 0xFE000#20⟩, by decide, rfl, eq_of_bits fun k => ?_⟩
  fin_cases k <;> (simp only [encode, callData, twOf, BitVec.getLsbD_and, BitVec.getLsbD_append]; simp)

theorem pbNtW (a : BitVec 12) (b : Byte) : Statement (.pbNtW a b) := by
  refine ⟨⟨"PB_NT_W", 0x52000#20, 0xFF000#20⟩, by decide, rfl, eq_of_bits fun k => ?_⟩
  fin_cases k <;> (simp only [encode, callData, twOf, BitVec.getLsbD_and, BitVec.getLsbD_append]; simp)

theorem pbNtW3000 (a : BitVec 11) (b : Byte) : Statement (.pbNtW3000 a b) := by
  refine ⟨⟨"PB_NT_W.3000", 0x53000#20, 0xFF800#20⟩, by decide, rfl, eq_of_bits fun k => ?_⟩
  fin_cases k <;> (simp only [encode, callData, twOf, BitVec.getLsbD_and, BitVec.getLsbD_append]; simp)

theorem pbNtW3800 (a : BitVec 10) (b : Byte) : Statement (.pbNtW3800 a b) := by
  refine ⟨⟨"PB_NT_W.3800", 0x53800#20, 0xFFC00#20⟩, by decide, rfl, eq_of_bits fun k => ?_⟩
  fin_cases k <;> (simp only [encode, callData, twOf, BitVec.getLsbD_and, BitVec.getLsbD_append]; simp)

theorem pbNtW3C00 (a : BitVec 9) (b : Byte) : Statement (.pbNtW3C00 a b) := by
  refine ⟨⟨"PB_NT_W.3C00", 0x53C00#20, 0xFFE00#20⟩, by decide, rfl, eq_of_bits fun k => ?_⟩
  fin_cases k <;> (simp only [encode, callData, twOf, BitVec.getLsbD_and, BitVec.getLsbD_append]; simp)

theorem pbNtW3E00 (a : BitVec 8) (b : Byte) : Statement (.pbNtW3E00 a b) := by
  refine ⟨⟨"PB_NT_W.3E00", 0x53E00#20, 0xFFF00#20⟩, by decide, rfl, eq_of_bits fun k => ?_⟩
  fin_cases k <;> (simp only [encode, callData, twOf, BitVec.getLsbD_and, BitVec.getLsbD_append]; simp)

theorem pbPalW (a : BitVec 8) (b : Byte) : Statement (.pbPalW a b) := by
  refine ⟨⟨"PB_PAL_W", 0x53F00#20, 0xFFF00#20⟩, by decide, rfl, eq_of_bits fun k => ?_⟩
  fin_cases k <;> (simp only [encode, callData, twOf, BitVec.getLsbD_and, BitVec.getLsbD_append]; simp)

theorem pbOodW (a : BitVec 14) (b : Byte) : Statement (.pbOodW a b) := by
  refine ⟨⟨"PB_OOD_W", 0x54000#20, 0xFC000#20⟩, by decide, rfl, eq_of_bits fun k => ?_⟩
  fin_cases k <;> (simp only [encode, callData, twOf, BitVec.getLsbD_and, BitVec.getLsbD_append]; simp)

theorem pbOodW8000 (a : BitVec 15) (b : Byte) : Statement (.pbOodW8000 a b) := by
  refine ⟨⟨"PB_OOD_W.8000", 0x58000#20, 0xF8000#20⟩, by decide, rfl, eq_of_bits fun k => ?_⟩
  fin_cases k <;> (simp only [encode, callData, twOf, BitVec.getLsbD_and, BitVec.getLsbD_append]; simp)

theorem pbRdpal (i : BitVec 5) : Statement (.pbRdpal i) := by
  refine ⟨⟨"PB_RDPAL", 0x60000#20, 0xFFFE0#20⟩, by decide, rfl, eq_of_bits fun k => ?_⟩
  fin_cases k <;> (simp only [encode, callPlain, twOf, BitVec.getLsbD_and, BitVec.getLsbD_append]; simp)

theorem cycle : Statement (.cycle) := by
  refine ⟨⟨"CYCLE", 0x80000#20, 0xFFFFF#20⟩, by decide, rfl, eq_of_bits fun k => ?_⟩
  fin_cases k <;> (simp only [encode, callPlain, twOf, BitVec.getLsbD_and, BitVec.getLsbD_append]; simp)

theorem reset : Statement (.reset) := by
  refine ⟨⟨"RESET", 0x80001#20, 0xFFFFF#20⟩, by decide, rfl, eq_of_bits fun k => ?_⟩
  fin_cases k <;> (simp only [encode, callPlain, twOf, BitVec.getLsbD_and, BitVec.getLsbD_append]; simp)

theorem buttons1 (bitmap : Byte) : Statement (.buttons1 bitmap) := by
  refine ⟨⟨"BUTTONS1", 0x80002#20, 0xFFFFF#20⟩, by decide, rfl, eq_of_bits fun k => ?_⟩
  fin_cases k <;> (simp only [encode, callData, twOf, BitVec.getLsbD_and, BitVec.getLsbD_append]; simp)

theorem buttons2 (bitmap : Byte) : Statement (.buttons2 bitmap) := by
  refine ⟨⟨"BUTTONS2", 0x80003#20, 0xFFFFF#20⟩, by decide, rfl, eq_of_bits fun k => ?_⟩
  fin_cases k <;> (simp only [encode, callData, twOf, BitVec.getLsbD_and, BitVec.getLsbD_append]; simp)

theorem fbread (x y : Nat) : Statement (.fbread x y) := by
  refine ⟨⟨"FBREAD", 0x80004#20, 0xFFFFF#20⟩, by decide, rfl, eq_of_bits fun k => ?_⟩
  fin_cases k <;> (simp only [encode, twOf, BitVec.getLsbD_and, BitVec.getLsbD_append]; simp)

end Sys2Proof.Laws.TableRow
end

