-- ==== Sys2Proof/Tests/Slice0.lean ====
section
/-! SUPPORT. Tests: ill-formed terms refused, words written out from the spec's encoding, one step of each operation
with the results of the spec's own examples, and a witness for the hypotheses of each statement. -/

namespace Sys2Proof.Tests

open Sys2Proof.Machine

/-- The state after reset with another PPU. -/
def withPpu (p : Ppu) : State := { State.reset with ppu := p }

/-- The PPU after reset at another position. -/
def at_ (phase : Phase) (line dot : BitVec 9) : Ppu :=
  { Ppu.powerOn with phase := phase, scanline := line, dot := dot }

/-- The PPU `p` with both show flags set: rendering enabled. -/
def shown (p : Ppu) : Ppu := { p with showBackground := true, showSprites := true }

/-- The state after reset with other parameters. -/
def withPar (par : Params) : State := { State.reset with par := par }

/-- The state of a session with CHR RAM (R124, `ram8k`). -/
def ramSession : State :=
  { State.reset with
    mapper := .fixed true (some [])
    cart := { Cart.c16 with chrIsRam := true }
    par := { State.reset.par with chrRamFixed := .ram8k } }

/-- The state of a two-bank session (R124). -/
def twoBanks (cells : ByteMemory) : State :=
  { State.reset with
    mapper := .fixed false none
    cart := { Cart.c16 with prg := { size := 32768, cells := cells } } }

/-- The state after reset with other PRG contents, one bank. -/
def oneBankWith (cells : ByteMemory) : State :=
  { State.reset with cart := { Cart.c16 with prg := { size := 16384, cells := cells } } }

/-- `i` answers a next state that meets `P`. -/
def after (i : Instr) (s : State) (P : State → Bool) : Bool :=
  match exec i s with
  | .next t => P t
  | .fault _ => false
  | .refused _ => false

/-- `i` stops with the fault `f`. -/
def faults (i : Instr) (s : State) (f : Fault) : Bool :=
  match exec i s with
  | .next _ => false
  | .fault g => f == g
  | .refused _ => false

section WellFormed

/-- R54: a column of 256 is refused, 255 is not. -/
theorem test_column_out_of_range : (Instr.fbread 256 0).columnOk = false ∧ (Instr.fbread 256 0).wellFormed = false
    ∧ (Instr.fbread 255 0).wellFormed = true := by decide

/-- R54: a row of 240 is refused, 239 is not. -/
theorem test_row_out_of_range : (Instr.fbread 0 240).rowOk = false ∧ (Instr.fbread 0 240).wellFormed = false
    ∧ (Instr.fbread 0 239).wellFormed = true := by decide

end WellFormed

section Decode

/-- R55: `W $2000`..`W $2007` (TW = 0x10000 + address, R53), and mirrors up to `$3FFF`. -/
theorem test_decode_port_writes :
    decode (callData 0x12000#20 0x82#8) = .instr (.ppuctrlW 0#10 0x82#8)
      ∧ decode (callData 0x12009#20 0x1E#8) = .instr (.ppumaskW 1#10 0x1E#8)
      ∧ decode (callData 0x12002#20 0xFF#8) = .instr (.ppustatusW 0#10 0xFF#8)
      ∧ decode (callData 0x12003#20 0x10#8) = .instr (.oamaddrW 0#10 0x10#8)
      ∧ decode (callData 0x12004#20 0x7E#8) = .instr (.oamdataW 0#10 0x7E#8)
      ∧ decode (callData 0x12005#20 0x7D#8) = .instr (.ppuscrollW 0#10 0x7D#8)
      ∧ decode (callData 0x13FFE#20 0x21#8) = .instr (.ppuaddrW 0x3FF#10 0x21#8)
      ∧ decode (callData 0x12007#20 0x2A#8) = .instr (.ppudataW 0#10 0x2A#8) := by decide

/-- R55, R86: `R $2000`..`R $2007` (TW = address, R53), and mirrors. -/
theorem test_decode_port_reads :
    decode (callPlain 0x02000#20) = .instr (.ppuctrlR 0#10)
      ∧ decode (callPlain 0x02001#20) = .instr (.ppumaskR 0#10)
      ∧ decode (callPlain 0x0200A#20) = .instr (.ppustatusR 1#10)
      ∧ decode (callPlain 0x02003#20) = .instr (.oamaddrR 0#10)
      ∧ decode (callPlain 0x02004#20) = .instr (.oamdataR 0#10)
      ∧ decode (callPlain 0x02005#20) = .instr (.ppuscrollR 0#10)
      ∧ decode (callPlain 0x02006#20) = .instr (.ppuaddrR 0#10)
      ∧ decode (callPlain 0x03FFF#20) = .instr (.ppudataR 0x3FF#10) := by decide

/-- R55: the DMA port, the controller ports and the PRG window. -/
theorem test_decode_other_cpu_addresses :
    decode (callData 0x14014#20 0x80#8) = .instr (.oamdmaW 0x80#8)
      ∧ decode (callPlain 0x04014#20) = .instr .oamdmaR
      ∧ decode (callData 0x14016#20 0x01#8) = .instr (.ctrlStrobeW 0x01#8)
      ∧ decode (callPlain 0x04016#20) = .instr .ctrl1R
      ∧ decode (callPlain 0x04017#20) = .instr .ctrl2R
      ∧ decode (callPlain 0x0C123#20) = .instr (.prgR 0x4123#15)
      ∧ decode (callData 0x18000#20 0x01#8) = .instr (.prgW 0#15 0x01#8) := by decide

/-- R131, R53: PictureBus reads (TW = 0x40000 + address), each region at its last address, and the palette read. -/
theorem test_decode_bus_reads :
    decode (callPlain 0x41FFF#20) = .instr (.pbPatR 0x1FFF#13)
      ∧ decode (callPlain 0x42FFF#20) = .instr (.pbNtR 0xFFF#12)
      ∧ decode (callPlain 0x437FF#20) = .instr (.pbNtR3000 0x7FF#11)
      ∧ decode (callPlain 0x43BFF#20) = .instr (.pbNtR3800 0x3FF#10)
      ∧ decode (callPlain 0x43DFF#20) = .instr (.pbNtR3C00 0x1FF#9)
      ∧ decode (callPlain 0x43EFF#20) = .instr (.pbNtR3E00 0xFF#8)
      ∧ decode (callPlain 0x43F21#20) = .instr (.pbPalR 0x21#8)
      ∧ decode (callPlain 0x44000#20) = .instr (.pbOodR 0#14)
      ∧ decode (callPlain 0x48000#20) = .instr (.pbOodR8000 0#15)
      ∧ decode (callPlain 0x6001F#20) = .instr (.pbRdpal 0x1F#5) := by decide

/-- R131, R53: PictureBus writes (TW = 0x50000 + address), each region at its first address. -/
theorem test_decode_bus_writes :
    decode (callData 0x50000#20 0x55#8) = .instr (.pbPatW 0#13 0x55#8)
      ∧ decode (callData 0x52000#20 0x55#8) = .instr (.pbNtW 0#12 0x55#8)
      ∧ decode (callData 0x53000#20 0x55#8) = .instr (.pbNtW3000 0#11 0x55#8)
      ∧ decode (callData 0x53800#20 0x55#8) = .instr (.pbNtW3800 0#10 0x55#8)
      ∧ decode (callData 0x53C00#20 0x55#8) = .instr (.pbNtW3C00 0#9 0x55#8)
      ∧ decode (callData 0x53E00#20 0x55#8) = .instr (.pbNtW3E00 0#8 0x55#8)
      ∧ decode (callData 0x53F00#20 0x2A#8) = .instr (.pbPalW 0#8 0x2A#8)
      ∧ decode (callData 0x57FFF#20 0x55#8) = .instr (.pbOodW 0x3FFF#14 0x55#8)
      ∧ decode (callData 0x5FFFF#20 0x55#8) = .instr (.pbOodW8000 0x7FFF#15 0x55#8) := by decide

/-- R54: the host calls (TW = 0x80000 + number). -/
theorem test_decode_host_calls :
    decode (callPlain 0x80000#20) = .instr .cycle
      ∧ decode (callPlain 0x80001#20) = .instr .reset
      ∧ decode (callData 0x80002#20 0x09#8) = .instr (.buttons1 0x09#8)
      ∧ decode (callData 0x80003#20 0x09#8) = .instr (.buttons2 0x09#8)
      ∧ decode { tw := 0x80004#20, data := 0#8, x := 16, y := 17 } = .instr (.fbread 16 17) := by decide

/-- R68: one word of each reserved outcome, (a) to (e), at the edge of its range. -/
theorem test_decode_reserved_words :
    decode (callPlain 0xC0000#20) = .refused .reservedSpace
      ∧ decode (callPlain 0x22000#20) = .refused .reservedBits
      ∧ decode (callPlain 0x70000#20) = .refused .reservedBits
      ∧ decode (callPlain 0x90000#20) = .refused .reservedBits
      ∧ decode (callPlain 0x60020#20) = .paletteOutOfDomain
      ∧ decode (callPlain 0x80005#20) = .refused .unknownHostCall
      ∧ decode (callPlain 0x01FFF#20) = .refused .notInBlock
      ∧ decode (callPlain 0x04015#20) = .refused .notInBlock
      ∧ decode (callData 0x14017#20 0#8) = .refused .notInBlock
      ∧ decode (callPlain 0x07FFF#20) = .refused .notInBlock := by decide

/-- spec/opcode_table.json: the first row's word, with operand bits zero, as the host lays it out. -/
theorem test_table_word : decodeTableWord 24 0x12000 = some (.ppuctrlW 0#10 0#8)
    ∧ decodeTableWord 24 0xC0000 = none := by decide

end Decode

section OneStep

/-- R74, the rule's example. -/
theorem test_control : after (.ppuctrlW 0#10 0x82#8) (withPpu { Ppu.powerOn with t := 0x616F#15 })
    (fun u => u.ppu.generateInterrupt && u.ppu.t == 0x696F#15 && u.ppu.increment == .by1) = true := by decide

/-- R75, the rule's example. -/
theorem test_mask : after (.ppumaskW 0#10 0x1E#8) State.reset (fun u => u.ppu.showBackground && u.ppu.showSprites
    && !u.ppu.hideEdgeBackground && !u.ppu.hideEdgeSprites && !u.ppu.greyscale) = true := by decide

/-- R76, the rule's example: the first read gives 0xC0. -/
theorem test_status_first : after (.ppustatusR 0#10)
    (withPpu { Ppu.powerOn with vblank := true, sprZeroHit := true, firstWrite := false })
    (fun u => u.result == .byte 0xC0#8 && !u.ppu.vblank && u.ppu.sprZeroHit && u.ppu.firstWrite) = true := by decide

/-- R76, the rule's example: the second read gives 0x40. -/
theorem test_status_second : after (.ppustatusR 0#10) (withPpu { Ppu.powerOn with sprZeroHit := true })
    (fun u => u.result == .byte 0x40#8) = true := by decide

/-- R77, the rule's example. -/
theorem test_status_write : after (.ppustatusW 0#10 0xFF#8) (withPpu { Ppu.powerOn with firstWrite := false, vblank := true })
    (fun u => !u.ppu.firstWrite && u.ppu.vblank && u.ppu.v == 0#15 && u.ppu.t == 0#15) = true := by decide

/-- R78, the rule's example. -/
theorem test_oam_address : after (.oamaddrW 0#10 0x10#8) State.reset (fun u => u.ppu.oamAddr == 0x10#8) = true := by
  decide

/-- R79, the rule's example. -/
theorem test_oam_read : after (.oamdataR 0#10)
    (withPpu { Ppu.powerOn with oam := [(0x10, 0x3C#8)], oamAddr := 0x10#8 })
    (fun u => u.result == .byte 0x3C#8 && u.ppu.oamAddr == 0x10#8) = true := by decide

/-- R80, the rule's example: the cursor wraps. -/
theorem test_oam_write_wraps : after (.oamdataW 0#10 0x7E#8) (withPpu { Ppu.powerOn with oamAddr := 0xFF#8 })
    (fun u => Memory.read u.ppu.oam 0xFF == 0x7E#8 && u.ppu.oamAddr == 0#8) = true := by decide

/-- R81, the rule's example: the first write. -/
theorem test_scroll_first : after (.ppuscrollW 0#10 0x7D#8) State.reset
    (fun u => u.ppu.t == 0x000F#15 && u.ppu.fineX == 5#3 && !u.ppu.firstWrite) = true := by decide

/-- R81, the rule's example: the second write. -/
theorem test_scroll_second : after (.ppuscrollW 0#10 0x5E#8)
    (withPpu { Ppu.powerOn with t := 0x000F#15, fineX := 5#3, firstWrite := false })
    (fun u => u.ppu.t == 0x616F#15 && u.ppu.firstWrite && u.ppu.fineX == 5#3) = true := by decide

/-- R82, the rule's example `hi = 0xFF`: bits 7..6 are dropped, and bit 14 is cleared. -/
theorem test_address_first : after (.ppuaddrW 0#10 0xFF#8) (withPpu { Ppu.powerOn with t := 0x4000#15 })
    (fun u => u.ppu.t == 0x3F00#15 && u.ppu.v == 0#15 && !u.ppu.firstWrite) = true := by decide

/-- R82, the rule's example `hi = 0x21`, `lo = 0x08`. -/
theorem test_address_second : after (.ppuaddrW 0#10 0x08#8)
    (withPpu { Ppu.powerOn with t := 0x2100#15, firstWrite := false })
    (fun u => u.ppu.t == 0x2108#15 && u.ppu.v == 0x2108#15 && u.ppu.firstWrite) = true := by decide

/-- R83, the rule's example. -/
theorem test_data_read_delayed : after (.ppudataR 0#10)
    { withPpu { Ppu.powerOn with v := 0x2000#15, readBuffer := 0x11#8 } with
      pb := { ntRam := [(0, 0xAA#8)], palette := [] } }
    (fun u => u.result == .byte 0x11#8 && u.ppu.readBuffer == 0xAA#8 && u.ppu.v == 0x2001#15) = true := by decide

/-- R83: a palette-range read is not delayed and does not refill the buffer. -/
theorem test_data_read_palette : after (.ppudataR 0#10)
    { withPpu { Ppu.powerOn with v := 0x3F01#15, readBuffer := 0x11#8 } with
      pb := { ntRam := [], palette := [(1, 0x2A#8)] } }
    (fun u => u.result == .byte 0x2A#8 && u.ppu.readBuffer == 0x11#8 && u.ppu.v == 0x3F02#15) = true := by decide

/-- R84, the rule's example. -/
theorem test_data_write : after (.ppudataW 0#10 0x2A#8) (withPpu { Ppu.powerOn with v := 0x3F01#15 })
    (fun u => Memory.read u.pb.palette 1 == 0x2A#8 && u.ppu.v == 0x3F02#15) = true := by decide

/-- R73: the increment of 32 wraps within 15 bits; the address is the low 14 bits (R40). -/
theorem test_data_write_wraps : after (.ppudataW 0#10 0x2A#8)
    (withPpu { Ppu.powerOn with v := 0x7FFF#15, increment := .by32 })
    (fun u => Memory.read u.pb.palette 0x1F == 0x2A#8 && u.ppu.v == 0x001F#15) = true := by decide

/-- R85, the rule's example (`c = 1`), with `src[0] = 0x11`, `src[0xFE] = 0x22`, `src[0xFF] = 0x33` in page 0x80. -/
theorem test_dma_wraps : after (.oamdmaW 0x80#8)
    { oneBankWith [(0, 0x11#8), (0xFE, 0x22#8), (0xFF, 0x33#8)] with
      ppu := { Ppu.powerOn with oamAddr := 1#8 } }
    (fun u => Memory.read u.ppu.oam 1 == 0x11#8 && Memory.read u.ppu.oam 0xFF == 0x22#8
      && Memory.read u.ppu.oam 0 == 0x33#8 && u.ppu.oamAddr == 1#8) = true := by decide +kernel

/-- R86: a read of a write-only port keeps the toggle and `v`. -/
theorem test_open_reads : [Instr.ppuctrlR 0#10, .ppumaskR 0#10, .oamaddrR 0#10, .ppuscrollR 0#10, .ppuaddrR 0#10,
    .oamdmaR].all (fun i => after i (withPpu { Ppu.powerOn with firstWrite := false, v := 5#15 })
      (fun u => !u.ppu.firstWrite && u.ppu.v == 5#15)) = true := by decide

/-- R138, the rule's example, on both controllers (R140). -/
theorem test_strobe_release : after (.ctrlStrobeW 0#8)
    { State.reset with
      ctrl1 := { isStrobe := true, buttons := 0x09#8, bits := 0#8 }
      ctrl2 := { isStrobe := true, buttons := 0x42#8, bits := 0#8 } }
    (fun u => u.ctrl1.bits == 0x09#8 && u.ctrl2.bits == 0x42#8 && !u.ctrl1.isStrobe && !u.ctrl2.isStrobe) = true := by
  decide

/-- R138: a write of 0 without a transition latches nothing. -/
theorem test_strobe_no_transition : after (.ctrlStrobeW 0#8)
    { State.reset with ctrl1 := { isStrobe := false, buttons := 0x09#8, bits := 0x42#8 } }
    (fun u => u.ctrl1.bits == 0x42#8) = true := by decide

/-- R139, the rule's example. -/
theorem test_read_controller1 : after .ctrl1R
    { State.reset with ctrl1 := { isStrobe := false, buttons := 0#8, bits := 0x09#8 } }
    (fun u => u.result == .byte 1#8 && u.ctrl1.bits == 0x84#8 && u.ctrl2.bits == 0#8) = true := by decide

/-- R139: while strobing, bit 0 of the buttons (L1.4, buttons `0x09`). -/
theorem test_read_controller2_strobing : after .ctrl2R
    { State.reset with ctrl2 := { isStrobe := true, buttons := 0x09#8, bits := 0#8 } }
    (fun u => u.result == .byte 1#8 && u.ctrl2.bits == 0x09#8) = true := by decide

/-- R126 (L1.5): one bank mirrors. -/
theorem test_prg_one_bank : after (.prgR 0x4123#15) (oneBankWith [(0x0123, 0x5A#8)])
    (fun u => u.result == .byte 0x5A#8) = true := by decide

/-- R126 (L1.5): two banks do not. -/
theorem test_prg_two_banks : after (.prgR 0x4123#15) (twoBanks [(0x0123, 0x5A#8), (0x4123, 0x77#8)])
    (fun u => u.result == .byte 0x77#8) = true := by decide

/-- R127, the rule's example. -/
theorem test_prg_write : after (.prgW 0#15 0x01#8) State.reset
    (fun u => u.out.diagLog == [.prgWriteIgnored 0x8000#16 0x01#8]) = true := by decide

/-- R120, the rule's example. -/
theorem test_pattern_read : after (.pbPatR 0x1203#13)
    { State.reset with cart := { Cart.c16 with chr := { size := 8192, cells := [(0x1203, 0x66#8)] } } }
    (fun u => u.result == .byte 0x66#8) = true := by decide

/-- R129, the rule's example: CHR ROM. -/
theorem test_pattern_write_rom : after (.pbPatW 0#13 0x55#8) State.reset
    (fun u => u.out.diagLog == [.chrWriteIgnored 0#16 0x55#8] && u.mapper == .fixed true none) = true := by decide

/-- R129: CHR RAM stores the byte and leaves no diagnostic. -/
theorem test_pattern_write_ram : after (.pbPatW 0#13 0x55#8) ramSession
    (fun u => u.mapper == .fixed true (some [(0, 0x55#8)]) && u.out.diagLog == []) = true := by decide

/-- R132, the rule's example: `0x2108`, `0x2908` and `0x3108` under vertical mirroring. -/
theorem test_nametable_reads : [Instr.pbNtR 0x108#12, .pbNtR 0x908#12, .pbNtR3000 0x108#11].all (fun i =>
    after i { State.reset with pb := { ntRam := [(0x108, 0x55#8)], palette := [] } }
      (fun u => u.result == .byte 0x55#8)) = true := by decide

/-- R135: the upper mirror parts, `0x3908`, `0x3D08` and `0x3E08` under vertical mirroring. -/
theorem test_nametable_reads_mirrors :
    after (.pbNtR3800 0x108#10) { State.reset with pb := { ntRam := [(0x108, 0x55#8)], palette := [] } }
        (fun u => u.result == .byte 0x55#8) = true
      ∧ after (.pbNtR3C00 0x108#9) { State.reset with pb := { ntRam := [(0x508, 0x66#8)], palette := [] } }
        (fun u => u.result == .byte 0x66#8) = true
      ∧ after (.pbNtR3E00 0x08#8) { State.reset with pb := { ntRam := [(0x608, 0x77#8)], palette := [] } }
        (fun u => u.result == .byte 0x77#8) = true := by decide

/-- R135, the rule's horizontal examples: `0x2508` and `0x2908`. -/
theorem test_nametable_writes_horizontal :
    after (.pbNtW 0x508#12 0x55#8) { State.reset with cart := { Cart.c16 with mirroring := .horizontal } }
        (fun u => u.pb.ntRam == [(0x108, 0x55#8)]) = true
      ∧ after (.pbNtW 0x908#12 0x55#8) { State.reset with cart := { Cart.c16 with mirroring := .horizontal } }
        (fun u => u.pb.ntRam == [(0x508, 0x55#8)]) = true := by decide

/-- R135: writes through the mirror parts, vertical mirroring. -/
theorem test_nametable_writes_mirrors :
    after (.pbNtW3000 0x108#11 0x55#8) State.reset (fun u => u.pb.ntRam == [(0x108, 0x55#8)]) = true
      ∧ after (.pbNtW3800 0x108#10 0x55#8) State.reset (fun u => u.pb.ntRam == [(0x108, 0x55#8)]) = true
      ∧ after (.pbNtW3C00 0x108#9 0x55#8) State.reset (fun u => u.pb.ntRam == [(0x508, 0x55#8)]) = true
      ∧ after (.pbNtW3E00 0x08#8 0x55#8) State.reset (fun u => u.pb.ntRam == [(0x608, 0x55#8)]) = true := by decide

/-- R133, the rule's example: `0x3F21`. -/
theorem test_palette_write : after (.pbPalW 0x21#8 0x2A#8) State.reset
    (fun u => u.pb.palette == [(1, 0x2A#8)]) = true := by decide

/-- R136, the rule's examples: `0x3F10` under `none` and under `hw`. -/
theorem test_palette_alias :
    after (.pbPalW 0x10#8 0x21#8) State.reset (fun u => u.pb.palette == [(0x10, 0x21#8)]) = true
      ∧ after (.pbPalW 0x10#8 0x21#8) (withPar { State.reset.par with paletteAlias := .hw })
        (fun u => u.pb.palette == [(0, 0x21#8)]) = true := by decide

/-- R133: a palette read gives all eight bits. R134, the rule's example. -/
theorem test_palette_reads :
    after (.pbPalR 0x11#8) { State.reset with pb := { ntRam := [], palette := [(0x11, 0xEA#8)] } }
        (fun u => u.result == .byte 0xEA#8) = true
      ∧ after (.pbRdpal 0x11#5) { State.reset with pb := { ntRam := [], palette := [(0x11, 0xEA#8)] } }
        (fun u => u.result == .byte 0xEA#8) = true := by decide

/-- R132, R133: at `0x4000` and at `0x8000` and above, the fault. -/
theorem test_bus_faults : faults (.pbOodR 0#14) State.reset .busOutOfDomain = true
    ∧ faults (.pbOodR8000 0x7FFF#15) State.reset .busOutOfDomain = true
    ∧ faults (.pbOodW 0#14 0#8) State.reset .busOutOfDomain = true
    ∧ faults (.pbOodW8000 0x7FFF#15 0#8) State.reset .busOutOfDomain = true := by decide

/-- R87, the rule's example: from reset, one dot. -/
theorem test_cycle_from_reset : after .cycle State.reset
    (fun u => u.ppu.phase == .preRender && u.ppu.scanline == 0#9 && u.ppu.dot == 1#9) = true := by decide

/-- R103: dot 1 of scanline 241 sets the flag and emits the signal. -/
theorem test_cycle_vblank : after .cycle (withPpu { at_ .verticalBlank 241#9 1#9 with generateInterrupt := true })
    (fun u => u.ppu.vblank && u.out.nmiCount == 1 && u.result == .interrupt && u.ppu.dot == 2#9) = true := by decide

/-- R159, the rule's example. -/
theorem test_reset : after .reset
    (withPpu { at_ .render 100#9 17#9 with vblank := true, oamAddr := 0x40#8, oam := [(3, 0x77#8)] })
    (fun u => u.ppu.phase == .preRender && u.ppu.scanline == 0#9 && u.ppu.dot == 0#9 && !u.ppu.vblank
      && u.ppu.oamAddr == 0#8 && u.ppu.oam == [(3, 0x77#8)]) = true := by decide

/-- R137, the rule's example, and the same of controller 2. -/
theorem test_buttons : after (.buttons1 0x09#8) State.reset (fun u => u.ctrl1.buttons == 0x09#8 && u.ctrl2.buttons == 0#8)
      = true
    ∧ after (.buttons2 0x09#8) State.reset (fun u => u.ctrl2.buttons == 0x09#8 && u.ctrl1.buttons == 0#8) = true := by
  decide

/-- R156: a readout, and the refusal outside the picture, which keeps the first mark (R143). -/
theorem test_fbread :
    after (.fbread 16 16) (withPpu { Ppu.powerOn with fb := fbWrite Ppu.powerOn.fb 16 16 7#32 })
        (fun u => u.result == .color 7#32) = true
      ∧ after (.fbread 256 0) { State.reset with out := { OutRecords.powerOn with refused := some .notInBlock } }
        (fun u => u.out.refused == some .notInBlock && u.result == .refused .noSuchPixel) = true := by decide

/-- R98, R99, R100, R101: the rules' examples. -/
theorem test_scroll_steps : incCoarseX 0x001F#15 = 0x0400#15 ∧ incCoarseX 0x7FFF#15 = 0x7BE0#15
    ∧ incY 0x73A0#15 = 0x0800#15 ∧ incY 0x7BA0#15 = 0#15 ∧ incY 0x73E0#15 = 0#15 ∧ incY 0x73C0#15 = 0x03E0#15
    ∧ copyH 0x7FFF#15 0#15 = 0x7BE0#15 ∧ copyV 0#15 0x7FFF#15 = 0x7BE0#15 := by decide

/-- R110, R111: the rules' address examples. -/
theorem test_pattern_addresses : nametableAddr 0x2C9E#15 = 0x2C9E#16 ∧ attributeAddr 0x2C9E#15 = 0x2FCF#16
    ∧ attributeShift 0x2C9E#15 = 2 ∧ attributeShift 0x0065#15 = 4 ∧ patternAddr 1#1 0x41#8 5 = 0x1415#16
    ∧ longPatternAddr 0x03#8 9 = 0x1031#16 ∧ longPatternAddr 0x02#8 15 = 0x0037#16 := by decide

/-- R114, the rule's example with ten sprites in range: the first eight. -/
theorem test_evaluation : evaluateSprites { Ppu.powerOn with oam := [(0, 0x0A#8), (4, 0x0A#8), (8, 0x0A#8), (12, 0x0A#8),
    (16, 0x0A#8), (20, 0x0A#8), (24, 0x0A#8), (28, 0x0A#8), (32, 0x0A#8), (36, 0x0A#8)] } 12
    = [0, 1, 2, 3, 4, 5, 6, 7] := by decide +kernel

end OneStep

section Witnesses

/-- The state after reset is live, and its session is the fixed-mapping one. -/
theorem test_reset_alive : State.reset.Alive := rfl

theorem test_reset_fixed : State.reset.FixedSession := ⟨rfl, .inl ⟨rfl, rfl⟩, rfl, rfl⟩

theorem test_ramSession_fixed : ramSession.Alive ∧ ramSession.FixedSession := ⟨rfl, rfl, .inl ⟨rfl, rfl⟩, rfl, rfl⟩

theorem test_twoBanks_fixed : (twoBanks []).Alive ∧ (twoBanks []).FixedSession := ⟨rfl, rfl, .inr ⟨rfl, rfl⟩, rfl, rfl⟩

/-- Any PPU may stand in a live fixed-mapping session. -/
theorem test_withPpu_fixed (p : Ppu) : (withPpu p).Alive ∧ (withPpu p).FixedSession :=
  ⟨rfl, rfl, .inl ⟨rfl, rfl⟩, rfl, rfl⟩

/-- Rendering enabled, on the default parameter. -/
theorem test_withPpu_rendering (p : Ppu) : (withPpu (shown p)).RenderingOn := .inl ⟨rfl, rfl, rfl⟩

/-- Rendering not enabled: both flags clear. -/
theorem test_reset_not_rendering : ¬State.reset.RenderingOn := by
  simp [State.RenderingOn, State.reset, Ppu.powerOn]

/-- Every memory of the state after reset is in canonical form. -/
theorem test_reset_memoryOk : State.reset.MemoryOk := by
  refine ⟨by decide, fun y => ?_, by decide, by decide, by decide, by decide, by decide⟩
  have h : State.reset.ppu.fb[y] = [] := by simp [State.reset, Ppu.powerOn]
  rw [h]
  decide

theorem test_reset_positionOk : State.reset.ppu.PositionOk := by
  refine ⟨by decide, ?_⟩
  show State.reset.ppu.scanline = 0#9
  decide

theorem test_reset_spritesOk : State.reset.ppu.SpritesOk := ⟨by decide, List.Pairwise.nil⟩

theorem test_reset_sessionOk : State.reset.SessionOk := test_reset_fixed

/-- A scheduled `cycle()` steps to a next state. -/
theorem test_step_next : ∃ t, step (withCall State.reset (callPlain 0x80000#20)) = .next t := ⟨_, rfl⟩

theorem test_meets_EncodeOfDecodeKeepsEveryBit :
    (decode (callData 0x13FFE#20 0x21#8) = .instr (.ppuaddrW 0x3FF#10 0x21#8) ∧ twW 0x13FFE#20 = 1#1)
      ∧ decode (callData 0x80002#20 0x09#8) = .instr (.buttons1 0x09#8)
      ∧ decode (callData 0x80003#20 0x09#8) = .instr (.buttons2 0x09#8)
      ∧ decode { tw := 0x80004#20, data := 0#8, x := 255, y := 239 } = .instr (.fbread 255 239) := by decide

/-- Each clause of the reserved words, at the edges of its range. -/
theorem test_meets_ReservedWordsHaveTheirOutcomes :
    State.reset.Alive
      ∧ (twSpace 0xC0000#20 = 3#2 ∧ twSpace 0xFFFFF#20 = 3#2)
      ∧ (twSpace 0x20000#20 = 0#2 ∧ twP 0x20000#20 = 1#1 ∧ twSpace 0xBFFFF#20 = 2#2 ∧ twP 0xBFFFF#20 = 1#1)
      ∧ (twSpace 0x90000#20 = 2#2 ∧ twP 0x90000#20 = 0#1 ∧ twW 0x90000#20 = 1#1)
      ∧ (twSpace 0x70000#20 = 1#2 ∧ twP 0x70000#20 = 1#1 ∧ twW 0x70000#20 = 1#1)
      ∧ (twSpace 0x60020#20 = 1#2 ∧ twP 0x60020#20 = 1#1 ∧ twW 0x60020#20 = 0#1 ∧ 31 < (twA 0x60020#20).toNat)
      ∧ (twSpace 0x80005#20 = 2#2 ∧ twP 0x80005#20 = 0#1 ∧ twW 0x80005#20 = 0#1 ∧ 4 < (twA 0x80005#20).toNat)
      ∧ (twSpace 0x01FFF#20 = 0#2 ∧ twP 0x01FFF#20 = 0#1 ∧ (twA 0x01FFF#20).toNat < 0x2000)
      ∧ (twSpace 0x07FFF#20 = 0#2 ∧ twP 0x07FFF#20 = 0#1 ∧ 0x4000 ≤ (twA 0x07FFF#20).toNat
        ∧ (twA 0x07FFF#20).toNat < 0x8000 ∧ (twA 0x07FFF#20).toNat ≠ 0x4014 ∧ (twA 0x07FFF#20).toNat ≠ 0x4016
        ∧ ((twA 0x07FFF#20).toNat = 0x4017 → twW 0x07FFF#20 = 1#1))
      ∧ (twSpace 0x14017#20 = 0#2 ∧ twP 0x14017#20 = 0#1 ∧ 0x4000 ≤ (twA 0x14017#20).toNat
        ∧ (twA 0x14017#20).toNat < 0x8000 ∧ (twA 0x14017#20).toNat ≠ 0x4014 ∧ (twA 0x14017#20).toNat ≠ 0x4016
        ∧ twW 0x14017#20 = 1#1)
      ∧ (twSpace 0x44000#20 = 1#2 ∧ twP 0x44000#20 = 0#1 ∧ 0x4000 ≤ (twA 0x44000#20).toNat)
      ∧ (twSpace 0x5FFFF#20 = 1#2 ∧ twP 0x5FFFF#20 = 0#1 ∧ 0x4000 ≤ (twA 0x5FFFF#20).toNat) :=
  ⟨rfl, by decide⟩

theorem test_meets_StepRunsTheDecodedCall :
    ((withCall State.reset (callPlain 0x80000#20)).schedule = callPlain 0x80000#20 :: []
        ∧ decode (callPlain 0x80000#20) = .instr .cycle)
      ∧ (State.reset.Alive ∧ State.reset.schedule = []) := ⟨by decide, rfl, rfl⟩

theorem test_meets_FaultAndRefusalMarksAreKept :
    ({ State.reset with out := { OutRecords.powerOn with faulted := some .busOutOfDomain } } : State).out.faulted
        = some .busOutOfDomain
      ∧ ({ State.reset with out := { OutRecords.powerOn with refused := some .notInBlock } } : State).out.refused
        = some .notInBlock
      ∧ ∃ t, step { State.reset with out := { OutRecords.powerOn with refused := some .notInBlock } } = .next t :=
  ⟨rfl, rfl, _, rfl⟩

theorem test_meets_EveryStepKeepsTheMemoryForm :
    (withCall State.reset (callData 0x53F00#20 0x2A#8)).MemoryOk
      ∧ ∃ t, step (withCall State.reset (callData 0x53F00#20 0x2A#8)) = .next t := ⟨test_reset_memoryOk, _, rfl⟩

theorem test_meets_EveryStepKeepsThePositionLegal :
    (withCall State.reset (callPlain 0x80000#20)).ppu.PositionOk
      ∧ (withCall State.reset (callPlain 0x80000#20)).ppu.SpritesOk
      ∧ ∃ t, step (withCall State.reset (callPlain 0x80000#20)) = .next t :=
  ⟨test_reset_positionOk, test_reset_spritesOk, _, rfl⟩

theorem test_meets_EveryStepKeepsTheSession :
    State.reset.mapper = .fixed true none ∧ State.reset.SessionOk
      ∧ ({ State.reset with mapper := .variant 1 default } : State).mapper = .variant 1 default
      ∧ (∃ t, step (withCall State.reset (callPlain 0x80000#20)) = .next t)
      ∧ ∃ t, step { withCall State.reset (callPlain 0x80000#20) with mapper := .variant 1 default } = .next t :=
  ⟨rfl, test_reset_sessionOk, rfl, ⟨_, rfl⟩, _, rfl⟩

theorem test_meets_PortOperationsKeepThePosition :
    isPortOp (.oamdmaW 0xFF#8) = true ∧ State.reset.Alive ∧ State.reset.FixedSession
      ∧ (∃ t, exec (.ppuctrlW 0#10 0x80#8) State.reset = .next t) ∧ isPortOp (.ppuctrlW 0#10 0x80#8) = true
      ∧ ({ State.reset with out := { OutRecords.powerOn with faulted := some .busOutOfDomain } } : State).out.faulted
        ≠ none := ⟨rfl, rfl, test_reset_fixed, ⟨_, rfl⟩, rfl, by decide⟩

theorem test_meets_InterruptOnlyAtTheVblankDot :
    (∃ t, exec .cycle (withPpu { at_ .verticalBlank 241#9 1#9 with generateInterrupt := true }) = .next t
        ∧ t.out.nmiCount = 1)
      ∧ (∃ t, exec .cycle (withPpu (at_ .verticalBlank 241#9 1#9)) = .next t ∧ t.out.nmiCount = 0)
      ∧ ∃ t, exec .cycle (withPpu { at_ .verticalBlank 242#9 1#9 with generateInterrupt := true }) = .next t
        ∧ t.out.nmiCount = 0 := ⟨⟨_, rfl, by decide⟩, ⟨_, rfl, by decide⟩, _, rfl, by decide⟩

theorem test_meets_VblankHasOnlyItsWriters :
    (∃ t, exec .cycle (withPpu (at_ .verticalBlank 241#9 1#9)) = .next t ∧ t.ppu.vblank = true)
      ∧ (∃ t, exec .cycle (withPpu { at_ .preRender 0#9 1#9 with vblank := true }) = .next t ∧ t.ppu.vblank = false)
      ∧ (∃ t, exec (.ppustatusR 0#10) (withPpu { Ppu.powerOn with vblank := true }) = .next t ∧ t.ppu.vblank = false)
      ∧ ∃ t, exec .reset (withPpu { Ppu.powerOn with vblank := true }) = .next t ∧ t.ppu.vblank = false :=
  ⟨⟨_, rfl, by decide⟩, ⟨_, rfl, by decide⟩, ⟨_, rfl, by decide⟩, _, rfl, by decide⟩

/-- A session whose dot 1 of line 0 draws sprite 0 over an opaque background: all pattern rows are 0xFF. -/
def hitState : State :=
  { withPpu { shown (at_ .render 0#9 1#9) with
      hideEdgeBackground := false, hideEdgeSprites := false, lineSprites := [0] } with
    cart := { Cart.c16 with chr := { size := 8192, cells := [(0, 0xFF#8), (7, 0xFF#8)] } } }

theorem test_meets_SpriteZeroHitHasOnlyItsWriters :
    after .cycle hitState (fun t => t.ppu.sprZeroHit) = true ∧ hitState.ppu.sprZeroHit = false
      ∧ (∃ t, exec .cycle (withPpu { at_ .preRender 0#9 1#9 with sprZeroHit := true }) = .next t
        ∧ t.ppu.sprZeroHit = false)
      ∧ (∃ t, exec .reset (withPpu { Ppu.powerOn with sprZeroHit := true }) = .next t ∧ t.ppu.sprZeroHit = false)
      ∧ ∃ t, exec (.ppustatusR 0#10) (withPpu { Ppu.powerOn with sprZeroHit := true }) = .next t :=
  ⟨by decide +kernel, rfl, ⟨_, rfl, by decide⟩, ⟨_, rfl, by decide⟩, _, rfl⟩

theorem test_meets_FrameBufferIsWrittenOnlyByThePixel :
    after .cycle hitState (fun _ => true) = true ∧ hitState.ppu.phase = .render ∧ hitState.ppu.dot = 1#9
      ∧ ∃ t, exec .reset State.reset = .next t := ⟨by decide +kernel, rfl, rfl, _, rfl⟩

/-- Each clause: an operation that writes neither, a PRG write, a pattern write, and a nametable write. -/
theorem test_meets_MemoriesHaveOnlyTheirWriters :
    ((∃ t, exec (.oamaddrW 0#10 1#8) State.reset = .next t) ∧ isBusWrite (.oamaddrW 0#10 1#8) = false)
      ∧ ((∃ t, exec (.pbRdpal 0#5) State.reset = .next t) ∧ isBusWrite (.pbRdpal 0#5) = false)
      ∧ (∃ t, exec (.prgW 0#15 1#8) State.reset = .next t) ∧ (∃ t, exec (.pbPatW 0#13 1#8) State.reset = .next t)
      ∧ (∃ t, exec (.pbNtW 0#12 1#8) State.reset = .next t) ∧ isBusWrite (.pbNtW 0#12 1#8) = true
      ∧ ∀ a b, Instr.pbNtW 0#12 1#8 ≠ .pbPatW a b :=
  ⟨⟨⟨_, rfl⟩, rfl⟩, ⟨⟨_, rfl⟩, rfl⟩, ⟨_, rfl⟩, ⟨_, rfl⟩, ⟨_, rfl⟩, rfl, fun _ _ => Instr.noConfusion⟩

theorem test_meets_DiagnosticLogOnlyGrows :
    (∃ t, exec (.prgW 0#15 1#8) State.reset = .next t ∧ t.out.diagLog ≠ State.reset.out.diagLog)
      ∧ (∃ t, exec (.ppudataW 0#10 1#8) State.reset = .next t ∧ t.out.diagLog ≠ State.reset.out.diagLog)
      ∧ ∃ t, exec (.pbPatW 0#13 1#8) State.reset = .next t ∧ t.out.diagLog ≠ State.reset.out.diagLog :=
  ⟨⟨_, rfl, by decide⟩, ⟨_, rfl, by decide⟩, _, rfl, by decide⟩

theorem test_meets_ControlWriteSetsItsFields : State.reset.Alive := rfl

theorem test_meets_MaskWriteSetsItsFields : State.reset.Alive := rfl

theorem test_meets_OamPortsUseTheCursor : State.reset.Alive := rfl

theorem test_meets_NametableReadsFollowTheMirroring : State.reset.Alive := rfl

theorem test_meets_PaletteAccessFollowsTheAliasing : State.reset.Alive := rfl

theorem test_meets_BusAccessOutsideTheDomainFaults : State.reset.Alive := rfl

theorem test_meets_ResetSetsTheScalarsOnly : State.reset.Alive := rfl

theorem test_meets_StatusReadClearsVblankOnly :
    State.reset.Alive ∧ ∃ t, exec (.ppustatusR 0#10) State.reset = .next t := ⟨rfl, _, rfl⟩

theorem test_meets_ScrollWriteFollowsTheToggle :
    (State.reset.Alive ∧ State.reset.ppu.firstWrite = true)
      ∧ (withPpu { Ppu.powerOn with firstWrite := false }).Alive
      ∧ (withPpu { Ppu.powerOn with firstWrite := false }).ppu.firstWrite = false := ⟨⟨rfl, rfl⟩, rfl, rfl⟩

theorem test_meets_AddressWriteFollowsTheToggle :
    (State.reset.Alive ∧ State.reset.ppu.firstWrite = true)
      ∧ (withPpu { Ppu.powerOn with firstWrite := false }).Alive
      ∧ (withPpu { Ppu.powerOn with firstWrite := false }).ppu.firstWrite = false := ⟨⟨rfl, rfl⟩, rfl, rfl⟩

/-- Each clause of the data read at the edge: `0x3EFF` and `0x3F00`, with the address before and after the increment. -/
theorem test_meets_DataReadIsDelayedBelowThePalette :
    (∀ p, (withPpu p).Alive ∧ (withPpu p).FixedSession)
      ∧ (State.reset.par.readDelayAddr = .pre ∧ (0x3EFF#16 : Addr).toNat < 0x3F00)
      ∧ (State.reset.par.readDelayAddr = .pre ∧ 0x3F00 ≤ (0x3F00#16 : Addr).toNat)
      ∧ ((withPar { State.reset.par with readDelayAddr := .post }).par.readDelayAddr = .post
        ∧ (0x3EFE#15 + 1#15).toNat < 0x3F00 ∧ 0x3F00 ≤ (0x3EFF#15 + 1#15).toNat ∧ (0x7FFF#15 + 1#15).toNat < 0x3F00)
      ∧ (withPar { State.reset.par with readDelayAddr := .post }).Alive
      ∧ (withPar { State.reset.par with readDelayAddr := .post }).FixedSession :=
  ⟨test_withPpu_fixed, ⟨rfl, by decide⟩, ⟨rfl, by decide⟩, ⟨rfl, by decide⟩, rfl, rfl, .inl ⟨rfl, rfl⟩, rfl, rfl⟩

theorem test_meets_DataWriteStoresAndIncrements : State.reset.Alive ∧ State.reset.FixedSession :=
  ⟨rfl, test_reset_fixed⟩

/-- Pages `0x7F` and `0x80`, with one bank and with two. -/
theorem test_meets_DmaCopiesThePageFromTheCursor :
    State.reset.Alive ∧ State.reset.FixedSession ∧ State.reset.mapper = .fixed true none
      ∧ ((twoBanks []).Alive ∧ (twoBanks []).FixedSession) ∧ (twoBanks []).mapper = .fixed false none
      ∧ 0x80 ≤ (0x80#8 : Byte).toNat ∧ (0x7F#8 : Byte).toNat < 0x80 ∧ 255 < 256 :=
  ⟨rfl, test_reset_fixed, rfl, test_twoBanks_fixed, rfl, by decide⟩

theorem test_meets_OppositeDirectionsOfThePorts : State.reset.Alive
    ∧ (Instr.oamdmaR = .ppuctrlR 0#10 ∨ Instr.oamdmaR = .ppumaskR 0#10 ∨ Instr.oamdmaR = .oamaddrR 0#10
      ∨ Instr.oamdmaR = .ppuscrollR 0#10 ∨ Instr.oamdmaR = .ppuaddrR 0#10 ∨ Instr.oamdmaR = .oamdmaR) :=
  ⟨rfl, by decide⟩

theorem test_meets_PrgReadResolvesTheBank :
    (State.reset.Alive ∧ State.reset.FixedSession ∧ State.reset.mapper = .fixed true none)
      ∧ ((twoBanks []).Alive ∧ (twoBanks []).FixedSession) ∧ (twoBanks []).mapper = .fixed false none :=
  ⟨⟨rfl, test_reset_fixed, rfl⟩, test_twoBanks_fixed, rfl⟩

theorem test_meets_PrgWriteLeavesADiagnostic : State.reset.Alive ∧ State.reset.FixedSession := ⟨rfl, test_reset_fixed⟩

theorem test_meets_PatternAccessGoesToCharacterMemory :
    (State.reset.Alive ∧ State.reset.FixedSession ∧ State.reset.mapper = .fixed true none)
      ∧ (ramSession.Alive ∧ ramSession.FixedSession) ∧ ramSession.mapper = .fixed true (some []) :=
  ⟨⟨rfl, test_reset_fixed, rfl⟩, test_ramSession_fixed, rfl⟩

theorem test_meets_NametableWritesFollowTheMirroring :
    State.reset.Alive
      ∧ (∃ a, Instr.pbNtW 0xFFF#12 1#8 = .pbNtW a 1#8 ∧ 0x2FFF = 0x2000 + a.toNat)
      ∧ (∃ a, Instr.pbNtW3000 0#11 1#8 = .pbNtW3000 a 1#8 ∧ 0x3000 = 0x3000 + a.toNat)
      ∧ (∃ a, Instr.pbNtW3800 0#10 1#8 = .pbNtW3800 a 1#8 ∧ 0x3800 = 0x3800 + a.toNat)
      ∧ (∃ a, Instr.pbNtW3C00 0#9 1#8 = .pbNtW3C00 a 1#8 ∧ 0x3C00 = 0x3C00 + a.toNat)
      ∧ ∃ a, Instr.pbNtW3E00 0xFF#8 1#8 = .pbNtW3E00 a 1#8 ∧ 0x3EFF = 0x3E00 + a.toNat :=
  ⟨rfl, ⟨_, rfl, rfl⟩, ⟨_, rfl, rfl⟩, ⟨_, rfl, rfl⟩, ⟨_, rfl, rfl⟩, _, rfl, rfl⟩

/-- A session of variant 1. -/
def variantSession : State :=
  { State.reset with
    mapper := .variant 1 default
    cart := { Cart.c16 with mapperNumber := 1 }
    par := { State.reset.par with mapperNumbers := [1] } }

theorem test_meets_MapperKeepsItsContract :
    (0x7FFF#16 : Addr).toNat < 0x8000 ∧ 0x1FFF < (0x2000#16 : Addr).toNat
      ∧ (∃ t, writePRG State.reset 0x8000#16 1#8 = .ok t) ∧ (∃ t, writeCHR State.reset 0x1FFF#16 1#8 = .ok t)
      ∧ variantSession.Alive ∧ variantSession.mapper = .variant 1 default ∧ 0x8000 ≤ (0x8000#16 : Addr).toNat :=
  ⟨by decide, by decide, ⟨_, rfl⟩, ⟨_, rfl⟩, rfl, rfl, by decide⟩

/-- The premises, and those of the two clauses of `HonouredWrite` at the edge of CHR RAM. -/
theorem test_meets_VariantWritesAreHonoured :
    variantSession.Alive ∧ variantSession.mapper = .variant 1 default
      ∧ (∃ k, ({ banks := [1], chrStore := some 8192 } : VariantWrite).chrStore = some k ∧ 8192 ≤ k)
      ∧ (∀ k, ({ banks := [1], chrStore := some 8191 } : VariantWrite).chrStore = some k → k < 8192) :=
  ⟨rfl, rfl, ⟨_, rfl, by decide⟩, by rintro k ⟨⟩; decide⟩

/-- The premises, at the first page of the window. -/
theorem test_meets_VariantDmaFollowsThePageView :
    variantSession.Alive ∧ variantSession.mapper = .variant 1 default ∧ 0x80 ≤ (0x80#8 : Byte).toNat :=
  ⟨rfl, rfl, by decide⟩

/-- Both clauses of the page view at the edge: one bank, `0xFF00` and `0xFF01` (R130). -/
theorem test_meets_PageViewIsBoundsChecked :
    State.reset.FixedSession ∧ State.reset.mapper = .fixed true none
      ∧ (0x8000 ≤ (0xFF00#16 : Addr).toNat
        ∧ ((0xFF00#16 : Addr).toNat - 0x8000) % 0x4000 + 256 ≤ State.reset.cart.prg.size)
      ∧ (0x8000 ≤ (0xFF01#16 : Addr).toNat
        ∧ State.reset.cart.prg.size < ((0xFF01#16 : Addr).toNat - 0x8000) % 0x4000 + 256)
      ∧ (twoBanks []).FixedSession ∧ (twoBanks []).mapper = .fixed false none ∧ (twoBanks []).par.pageViewEnd = .bank
      ∧ ((0xBF00#16 : Addr).toNat - 0x8000 + 256 ≤ 0x4000 ∧ 0x4000 < (0xBF01#16 : Addr).toNat - 0x8000 + 256) :=
  ⟨test_reset_fixed, rfl, by decide, by decide, test_twoBanks_fixed.2, rfl, rfl, by decide⟩

/-- Two banks, a view that passes the end of the first (R130, D33): it faults under the reading of D33, and gives the bytes
under R130's. -/
theorem test_pageView_across_banks :
    (getPagePtr (twoBanks []) 0xBF80#16).isOk = false ∧ (getPagePtr (twoBanks []) 0xBF00#16).isOk = true
      ∧ (getPagePtr { twoBanks [] with par := { (twoBanks []).par with pageViewEnd := .buffer } } 0xBF80#16).isOk = true := by
  simp [getPagePtr, pageEnd, prgOffset, fixedPrgOffset, fixedBankEnd, prgBankSize, twoBanks, State.reset, Params.defaults,
    Cart.c16, Except.isOk, Except.toBool]

/-- Each clause of the strobe: a transition, and none. -/
theorem test_meets_StrobeLatchesAtTheTransition :
    State.reset.Alive
      ∧ (({ isStrobe := true, buttons := 9#8, bits := 0#8 } : Controller).isStrobe = true ∧ (0xFE#8 : Byte).toNat % 2 = 0)
      ∧ ¬(State.reset.ctrl1.isStrobe = true ∧ (0xFE#8 : Byte).toNat % 2 = 0)
      ∧ ¬(State.reset.ctrl2.isStrobe = true ∧ (0xFE#8 : Byte).toNat % 2 = 0) := ⟨rfl, by decide⟩

/-- The state after reset with both strobes held. -/
def strobing : State :=
  { State.reset with
    ctrl1 := { isStrobe := true, buttons := 9#8, bits := 0#8 }
    ctrl2 := { isStrobe := true, buttons := 9#8, bits := 0#8 } }

theorem test_meets_ControllerReadShiftsOneBit :
    (strobing.Alive ∧ strobing.ctrl1.isStrobe = true ∧ strobing.ctrl2.isStrobe = true)
      ∧ (State.reset.Alive ∧ State.reset.ctrl1.isStrobe = false ∧ State.reset.ctrl2.isStrobe = false) :=
  ⟨⟨rfl, rfl, rfl⟩, rfl, rfl, rfl⟩

theorem test_meets_ReadsAfterTheLatchGiveTheButtons :
    strobing.Alive ∧ strobing.ctrl1.isStrobe = true ∧ strobing.ctrl2.isStrobe = true ∧ (0#8 : Byte).toNat % 2 = 0
      ∧ (7 < 8 ∧ ¬8 < 8) ∧ ∃ t, exec .cycle strobing = .next t := ⟨rfl, rfl, rfl, rfl, by decide, _, rfl⟩

theorem test_meets_FrameBufferReadout :
    State.reset.Alive ∧ (255 ≤ 255 ∧ 239 ≤ 239) ∧ (255 < 256 ∨ 239 < 0) ∧ (255 < 0 ∨ 239 < 240) := ⟨rfl, by decide⟩

theorem test_meets_ConstructionOfTheMapper :
    (Cart.c16.mapperNumber = 0 ∧ Cart.c16.prg.size = 16384 ∧ Cart.c16.chrIsRam = false ∧ Cart.c16.chr.size = 8192)
      ∧ ({ Cart.c16 with prg := { size := 16385, cells := [] } } : Cart).prg.size ≠ 16384
      ∧ ({ Cart.c16 with prg := { size := 16385, cells := [] } } : Cart).prg.size ≠ 32768
      ∧ ({ Cart.c16 with chrIsRam := true } : Cart).chrIsRam = true
      ∧ State.reset.par.chrRamFixed = .refuse ∧ ramSession.par.chrRamFixed = .ram8k
      ∧ ({ Cart.c16 with chr := { size := 8191, cells := [] } } : Cart).chr.size ≠ 8192
      ∧ (({ Cart.c16 with mapperNumber := 1 } : Cart).mapperNumber ≠ 0
        ∧ ({ Cart.c16 with mapperNumber := 1 } : Cart).mapperNumber ∉ State.reset.par.mapperNumbers)
      ∧ ({ Cart.c16 with mapperNumber := 1 } : Cart).mapperNumber
        ∈ ({ State.reset.par with mapperNumbers := [1] } : Params).mapperNumbers
      ∧ constructMapper { Cart.c16 with mapperNumber := 1 } State.reset.par Init.zero = .error .unsupportedMapper :=
  ⟨by decide, by decide, by decide, rfl, rfl, rfl, by decide, ⟨by decide, List.not_mem_nil⟩, List.mem_singleton.2 rfl, rfl⟩

theorem test_meets_ConstructionMeetsTheInvariant :
    construct Cart.c16 State.reset.par Init.zero = .ok State.reset ∧ Memory.wf 256 Init.zero.oam
      ∧ (∀ y : Fin 240, Memory.wf 256 Init.zero.fb[y]) ∧ Memory.wf 2048 Init.zero.ntRam
      ∧ Memory.wf 32 Init.zero.palette ∧ Memory.wf 8192 Init.zero.chrRam
      ∧ Memory.wf Cart.c16.prg.size Cart.c16.prg.cells ∧ Memory.wf Cart.c16.chr.size Cart.c16.chr.cells :=
  ⟨rfl, by decide, test_reset_memoryOk.2.1, by decide, by decide, by decide, by decide, by decide⟩

theorem test_meets_CycleAlwaysCompletes : State.reset.Alive ∧ State.reset.FixedSession := ⟨rfl, test_reset_fixed⟩

/-- Each clause of the PreRender dots at the edges of its range: dots 258, 281, 304, 305, 340, 339 (with and without the
skip) and 1. -/
theorem test_meets_PreRenderDotActions :
    (∀ d, (withPpu (shown (at_ .preRender 0#9 d))).Alive ∧ (withPpu (shown (at_ .preRender 0#9 d))).ppu.phase = .preRender
        ∧ (withPpu (shown (at_ .preRender 0#9 d))).ppu.dot = d ∧ (withPpu (shown (at_ .preRender 0#9 d))).RenderingOn)
      ∧ (281 ≤ (281#9).toNat ∧ (281#9).toNat ≤ 304 ∧ 281 ≤ (304#9).toNat ∧ (304#9).toNat ≤ 304)
      ∧ ¬((305#9 : BitVec 9) = 258#9 ∨ 281 ≤ (305#9).toNat ∧ (305#9).toNat ≤ 304)
      ∧ (withPpu { shown (at_ .preRender 0#9 339#9) with evenFrame := false }).ppu.evenFrame = false
      ∧ (withPpu { shown (at_ .preRender 0#9 339#9) with evenFrame := false }).RenderingOn
      ∧ ¬((1#9 : BitVec 9) = 340#9 ∨ (1#9 : BitVec 9) = 339#9)
      ∧ ¬((withPpu (shown (at_ .preRender 0#9 339#9))).ppu.dot = 340#9
        ∨ (withPpu (shown (at_ .preRender 0#9 339#9))).ppu.evenFrame = false) :=
  ⟨fun d => ⟨rfl, rfl, rfl, test_withPpu_rendering (at_ .preRender 0#9 d)⟩, by decide, by decide, rfl,
    .inl ⟨rfl, rfl, rfl⟩, by decide, by decide⟩

/-- Visible dots 1 and 256 of lines 0 and 239; the coarse step due at dot 8 and not at dot 1; each case of the palette
index. -/
theorem test_meets_VisibleDotDrawsOnePixel :
    (∀ l d, (withPpu (shown (at_ .render l d))).Alive ∧ (withPpu (shown (at_ .render l d))).FixedSession
        ∧ (withPpu (shown (at_ .render l d))).ppu.phase = .render)
      ∧ (1 ≤ (1#9).toNat ∧ (256#9).toNat ≤ 256 ∧ (239#9).toNat ≤ 239)
      ∧ ((withPpu (shown (at_ .render 0#9 8#9))).ppu.showBackground = true
        ∧ ((withPpu (shown (at_ .render 0#9 8#9))).ppu.fineX.toNat + 7) % 8 = 7)
      ∧ ¬((withPpu (shown (at_ .render 0#9 1#9))).ppu.fineX.toNat + 0) % 8 = 7
      ∧ sprites hitState 0 0 = .ok (some (0, { idx := 0x11#5, isOpaque := true, front := true }))
      ∧ background hitState 0 = .ok { idx := 0x01#5, isOpaque := true, front := false }
      ∧ sprites State.reset 0 0 = .ok none
      ∧ background State.reset 0 = .ok { idx := 0#5, isOpaque := false, front := false } :=
  ⟨fun _ _ => ⟨rfl, (test_withPpu_fixed _).2, rfl⟩, by decide, ⟨rfl, by decide⟩, by decide, by decide +kernel,
    by decide +kernel, rfl, rfl⟩

/-- A sprite behind an opaque background, the last case of the palette index. -/
theorem test_sprite_behind : sprites { hitState with ppu := { hitState.ppu with oam := [(2, 0x20#8)] } } 0 0
    = .ok (some (0, { idx := 0x11#5, isOpaque := true, front := false })) := by decide +kernel

/-- Each clause of the blanking dots: 0, 257, 258, 259 and 340. -/
theorem test_meets_BlankingDotsOfARenderLine :
    (∀ d, (withPpu (at_ .render 239#9 d)).Alive ∧ (withPpu (at_ .render 239#9 d)).ppu.phase = .render
        ∧ (withPpu (at_ .render 239#9 d)).ppu.dot = d)
      ∧ (257 ≤ (257#9).toNat ∧ 257 ≤ (258#9).toNat ∧ 257 ≤ (259#9).toNat ∧ 257 ≤ (340#9).toNat)
      ∧ ((0#9 : BitVec 9) ≠ 257#9 ∧ (0#9 : BitVec 9) ≠ 258#9 ∧ (0#9 : BitVec 9) ≠ 340#9)
      ∧ (withPpu (shown (at_ .render 239#9 258#9))).RenderingOn ∧ ¬(withPpu (at_ .render 239#9 258#9)).RenderingOn :=
  ⟨fun _ => ⟨rfl, rfl, rfl⟩, by decide, by decide, test_withPpu_rendering _, by
    simp [State.RenderingOn, withPpu, at_, Ppu.powerOn]⟩

/-- Each clause of the PostRender and VerticalBlank dots. -/
theorem test_meets_PostRenderAndVblankDots :
    (∀ p, (withPpu p).Alive)
      ∧ ((at_ .postRender 240#9 340#9).phase = .postRender ∧ (at_ .postRender 240#9 340#9).dot = 340#9)
      ∧ ((at_ .postRender 240#9 339#9).phase = .postRender ∧ (at_ .postRender 240#9 339#9).dot ≠ 340#9)
      ∧ ((at_ .verticalBlank 241#9 1#9).scanline = 241#9 ∧ (at_ .verticalBlank 241#9 1#9).generateInterrupt = false)
      ∧ ({ at_ .verticalBlank 241#9 1#9 with generateInterrupt := true } : Ppu).generateInterrupt = true
      ∧ ((at_ .verticalBlank 260#9 340#9).dot = 340#9 ∧ (at_ .verticalBlank 260#9 340#9).scanline = 260#9)
      ∧ ((at_ .verticalBlank 259#9 340#9).dot = 340#9 ∧ (at_ .verticalBlank 259#9 340#9).scanline ≠ 260#9)
      ∧ ((at_ .verticalBlank 241#9 2#9).dot ≠ 340#9
        ∧ ¬((at_ .verticalBlank 241#9 2#9).scanline = 241#9 ∧ (at_ .verticalBlank 241#9 2#9).dot = 1#9)) :=
  ⟨fun _ => rfl, by decide⟩

/-- Both clauses of the background pixel: hidden by the flag, hidden at column 7, shown at column 8. -/
theorem test_meets_BackgroundPixelByFields :
    State.reset.FixedSession ∧ State.reset.ppu.showBackground = false
      ∧ ((withPpu (shown Ppu.powerOn)).FixedSession ∧ (withPpu (shown Ppu.powerOn)).ppu.showBackground = true
        ∧ (withPpu (shown Ppu.powerOn)).ppu.hideEdgeBackground = true ∧ 7 < 8 ∧ 8 ≤ 8) :=
  ⟨test_reset_fixed, rfl, (test_withPpu_fixed _).2, rfl, rfl, by decide⟩

/-- Both clauses of the sprite scan. -/
theorem test_meets_SpriteScanTakesTheFirst :
    State.reset.FixedSession ∧ State.reset.ppu.showSprites = false
      ∧ ((withPpu (shown Ppu.powerOn)).FixedSession ∧ (withPpu (shown Ppu.powerOn)).ppu.showSprites = true
        ∧ (withPpu (shown Ppu.powerOn)).ppu.hideEdgeSprites = true ∧ 7 < 8 ∧ 8 ≤ 8) :=
  ⟨test_reset_fixed, rfl, (test_withPpu_fixed _).2, rfl, rfl, by decide⟩

/-- Both sprite sizes, and the first and the last column that a sprite at the left edge covers. -/
theorem test_meets_SpritePatternAddresses :
    Ppu.powerOn.longSprites = false ∧ ({ Ppu.powerOn with longSprites := true } : Ppu).longSprites = true
      ∧ State.reset.FixedSession ∧ State.reset.ppu = Ppu.powerOn
      ∧ ((spriteEntry [] 0).x.toNat ≤ 0 ∧ 0 < (spriteEntry [] 0).x.toNat + 8)
      ∧ (spriteEntry [] 0).x.toNat ≤ 7 ∧ 7 < (spriteEntry [] 0).x.toNat + 8 :=
  ⟨rfl, rfl, test_reset_fixed, rfl, by decide⟩

/-- The dots of the two clauses: dot 339 of an odd pre-render line, and dot 0. -/
theorem test_meets_EachCycleIsOneDot :
    (State.reset.ppu.PositionOk ∧ (lineStart State.reset.par).toNat ≤ State.reset.ppu.dot.toNat
        ∧ ∃ t, exec .cycle State.reset = .next t)
      ∧ (withPpu { shown (at_ .preRender 0#9 339#9) with evenFrame := false }).ppu.PositionOk
      ∧ (withPpu { shown (at_ .preRender 0#9 339#9) with evenFrame := false }).RenderingOn
      ∧ ∃ t, exec .cycle (withPpu { shown (at_ .preRender 0#9 339#9) with evenFrame := false }) = .next t :=
  ⟨⟨test_reset_positionOk, by decide, _, rfl⟩, ⟨by decide, rfl⟩, .inl ⟨rfl, rfl, rfl⟩, _, rfl⟩

/-- An even frame without the skip, and an odd one with it. -/
theorem test_meets_FrameLength :
    (State.reset.Alive ∧ State.reset.FixedSession ∧ State.reset.ppu.phase = .preRender
        ∧ State.reset.ppu.scanline = 0#9 ∧ State.reset.ppu.dot = lineStart State.reset.par
        ∧ ¬(State.reset.ppu.evenFrame = false ∧ State.reset.RenderingOn))
      ∧ (∀ p, (withPpu p).Alive ∧ (withPpu p).FixedSession)
      ∧ (withPpu { shown (at_ .preRender 0#9 0#9) with evenFrame := false }).ppu.evenFrame = false
      ∧ (withPpu { shown (at_ .preRender 0#9 0#9) with evenFrame := false }).RenderingOn :=
  ⟨⟨rfl, test_reset_fixed, rfl, rfl, rfl, fun h => test_reset_not_rendering h.2⟩, test_withPpu_fixed, rfl,
    .inl ⟨rfl, rfl, rfl⟩⟩

end Witnesses

end Sys2Proof.Tests
end

/-! PROOF. The VRAM address port (R60, R82). Each of its two writes joins whole fields into `t`; the number that they make
gives every field read back and the address of a pair. -/

namespace Sys2Proof.Machine

/-- A live session runs a port write that only changes PPU state. -/
theorem ppuWrite_of_alive {s : State} (h : s.Alive) (p : Ppu) :
    ppuWrite s p = .next { s with ppu := p, result := .nothing } :=
  live_of_alive h

section AddressFields
variable (p : Ppu) (b : Byte)

/-- The first write keeps `t[7:0]`, takes `t[13:8]` from the byte and clears `t[14]`. -/
theorem applyAddrFirst_t_append :
    (applyAddrFirst p b).t = 0#1 ++ (b.extractLsb' 0 6 ++ p.t.extractLsb' 0 8) := by
  refine BitVec.eq_of_getLsbD_eq fun k hk => ?_
  rw [applyAddrFirst_t]
  interval_cases k <;> (simp only [BitVec.getLsbD_append]; simp)

/-- The second write takes `t[7:0]` from the byte and keeps `t[14:8]`. -/
theorem applyAddrSecond_t_append : (applyAddrSecond p b).t = p.t.extractLsb' 8 7 ++ b := by
  refine BitVec.eq_of_getLsbD_eq fun k hk => ?_
  rw [applyAddrSecond_t]
  interval_cases k <;> (simp only [BitVec.getLsbD_append]; simp)

theorem applyAddrFirst_t_toNat : (applyAddrFirst p b).t.toNat = b.toNat % 64 * 256 + p.t.toNat % 256 := by
  rw [applyAddrFirst_t_append, toNat_append_eq, toNat_append_eq]
  simp

theorem applyAddrSecond_t_toNat : (applyAddrSecond p b).t.toNat = p.t.toNat / 256 * 256 + b.toNat := by
  rw [applyAddrSecond_t_append, toNat_append_eq, BitVec.extractLsb'_toNat, Nat.shiftRight_eq_div_pow]
  omega

theorem applyAddrFirst_t_fields :
    (applyAddrFirst p b).t.extractLsb' 8 6 = b.extractLsb' 0 6
      ∧ (applyAddrFirst p b).t.extractLsb' 14 1 = 0#1
      ∧ (applyAddrFirst p b).t.extractLsb' 0 8 = p.t.extractLsb' 0 8 := by
  refine ⟨?_, ?_, ?_⟩ <;> apply BitVec.eq_of_toNat_eq <;>
    simp only [BitVec.extractLsb'_toNat, BitVec.toNat_ofNat, Nat.shiftRight_eq_div_pow, applyAddrFirst_t_toNat] <;>
    omega

theorem applyAddrSecond_t_fields :
    (applyAddrSecond p b).t.extractLsb' 0 8 = b
      ∧ (applyAddrSecond p b).t.extractLsb' 8 7 = p.t.extractLsb' 8 7 := by
  refine ⟨?_, ?_⟩ <;> apply BitVec.eq_of_toNat_eq <;>
    simp only [BitVec.extractLsb'_toNat, Nat.shiftRight_eq_div_pow, applyAddrSecond_t_toNat] <;>
    omega

/-- The two bytes of a fresh pair make the address, whatever `t` was (R60). -/
theorem applyAddrPair_v_toNat (lo : Byte) :
    (applyAddrSecond (applyAddrFirst p b) lo).v.toNat = b.toNat % 64 * 256 + lo.toNat := by
  have commits : (applyAddrSecond (applyAddrFirst p b) lo).v = (applyAddrSecond (applyAddrFirst p b) lo).t := rfl
  rw [commits, applyAddrSecond_t_toNat, applyAddrFirst_t_toNat]
  omega

end AddressFields

theorem exec_ppuaddrW_first {s : State} (ha : s.Alive) (hf : s.ppu.firstWrite = true) (m : BitVec 10) (b : Byte) :
    exec (.ppuaddrW m b) s = .next { s with ppu := applyAddrFirst s.ppu b, result := .nothing } := by
  simp only [exec, execPpuaddrW, hf, if_true, ppuWrite_of_alive ha]

theorem exec_ppuaddrW_second {s : State} (ha : s.Alive) (hf : s.ppu.firstWrite = false) (m : BitVec 10) (b : Byte) :
    exec (.ppuaddrW m b) s = .next { s with ppu := applyAddrSecond s.ppu b, result := .nothing } := by
  simp only [exec, execPpuaddrW, hf, Bool.false_eq_true, if_false, ppuWrite_of_alive ha]

/-- Settles O25: the fields are those of the one write that the toggle selects, and two writes set the toggle back. -/
theorem addressWriteFollowsTheToggle : Obligations.AddressWriteFollowsTheToggle := by
  intro m b s ha
  refine ⟨?_, fun hf lo third => ?_⟩
  · cases hf : s.ppu.firstWrite with
    | true =>
      exact ⟨(applyAddrFirst s.ppu b).t,
        fun _ => ⟨exec_ppuaddrW_first ha hf m b, applyAddrFirst_t_fields s.ppu b⟩, nofun⟩
    | false =>
      exact ⟨(applyAddrSecond s.ppu b).t, nofun,
        fun _ => ⟨exec_ppuaddrW_second ha hf m b, applyAddrSecond_t_fields s.ppu b⟩⟩
  · have alive (p : Ppu) : State.Alive { s with ppu := p, result := .nothing } := ha
    exact ⟨_, _, _, exec_ppuaddrW_first ha hf m b, exec_ppuaddrW_second (alive _) rfl m lo,
      exec_ppuaddrW_first (alive _) rfl m third, applyAddrPair_v_toNat s.ppu b lo, rfl, rfl, rfl, rfl⟩

end Sys2Proof.Machine

/-! PROOF. The frame of the port operations (R72). Every port operation is a PPU write, an open read, or one of five accesses
with a law of its own; each keeps the position, emits no interrupt signal, and completes in a live fixed-mapping session. -/

namespace Sys2Proof.Machine

/-- The position of the PPU in its frame (R15 to R18): what no port operation moves. -/
def Ppu.position (p : Ppu) : Phase × BitVec 9 × BitVec 9 × Bool := (p.phase, p.scanline, p.dot, p.evenFrame)

theorem Ppu.position_eq_iff {p q : Ppu} :
    p.position = q.position
      ↔ p.phase = q.phase ∧ p.scanline = q.scanline ∧ p.dot = q.dot ∧ p.evenFrame = q.evenFrame := by
  simp [Ppu.position]

/-- What a port operation leaves unchanged (R72), and that it gives back no interrupt event. -/
structure PortFrame (s t : State) : Prop where
  position : t.ppu.position = s.ppu.position
  nmi : t.out.nmiCount = s.out.nmiCount
  result : t.result ≠ .interrupt

section Frame
variable {s t : State}

theorem ppuWrite_frame {p : Ppu} (h : ppuWrite s p = .next t) (hp : p.position = s.ppu.position) :
    s.Alive ∧ PortFrame s t := by
  obtain ⟨ha, rfl⟩ := ppuWrite_next h
  exact ⟨ha, hp, rfl, nofun⟩

theorem openRead_frame (h : openRead s = .next t) : s.Alive ∧ PortFrame s t := by
  obtain ⟨ha, rfl⟩ := openRead_next h
  exact ⟨ha, rfl, rfl, nofun⟩

theorem execPpustatusR_frame (m : BitVec 10) (h : execPpustatusR m s = .next t) : s.Alive ∧ PortFrame s t := by
  obtain ⟨ha, rfl⟩ := execPpustatusR_next h
  exact ⟨ha, rfl, rfl, nofun⟩

theorem execOamdataR_frame (m : BitVec 10) (h : execOamdataR m s = .next t) : s.Alive ∧ PortFrame s t := by
  obtain ⟨ha, rfl⟩ := execOamdataR_next h
  exact ⟨ha, rfl, rfl, nofun⟩

theorem dataReadEffect_position (par : Params) (p : Ppu) (a : Addr) (d : Byte) :
    (dataReadEffect par p a d).1.position = p.position := by
  obtain ⟨rb, hrb⟩ := dataReadEffect_fields par p a d
  rw [hrb]
  rfl

theorem execPpudataR_frame (m : BitVec 10) (h : execPpudataR m s = .next t) : s.Alive ∧ PortFrame s t := by
  obtain ⟨ha, d, -, rfl⟩ := execPpudataR_next h
  exact ⟨ha, dataReadEffect_position _ _ _ d, rfl, nofun⟩

theorem execPpudataW_frame (m : BitVec 10) (b : Byte) (h : execPpudataW m b s = .next t) :
    s.Alive ∧ PortFrame s t := by
  obtain ⟨ha, u, hu, rfl⟩ := execPpudataW_next h
  exact ⟨ha, rfl, (pbWrite_frame hu).nmi, nofun⟩

theorem execOamdmaW_frame (n : Byte) (h : execOamdmaW n s = .next t) : s.Alive ∧ PortFrame s t := by
  obtain ⟨ha, ⟨-, src, -, rfl⟩ | ⟨-, rfl⟩⟩ := execOamdmaW_next h
  · exact ⟨ha, rfl, rfl, nofun⟩
  · exact ⟨ha, rfl, rfl, nofun⟩

/-- What a port operation that answers a next state tells: no fault had occurred, and the frame of R72 holds. -/
theorem exec_portOp_next {i : Instr} (hi : isPortOp i = true) (h : exec i s = .next t) : s.Alive ∧ PortFrame s t := by
  cases i with
  | ppuctrlW _ _ | ppumaskW _ _ | ppustatusW _ _ | oamaddrW _ _ | oamdataW _ _ => exact ppuWrite_frame h rfl
  | ppuscrollW _ _ | ppuaddrW _ _ => exact ppuWrite_frame h (by split <;> rfl)
  | ppuctrlR _ | ppumaskR _ | oamaddrR _ | ppuscrollR _ | ppuaddrR _ | oamdmaR => exact openRead_frame h
  | ppustatusR m => exact execPpustatusR_frame m h
  | oamdataR m => exact execOamdataR_frame m h
  | ppudataR m => exact execPpudataR_frame m h
  | ppudataW m b => exact execPpudataW_frame m b h
  | oamdmaW n => exact execOamdmaW_frame n h
  | _ => cases hi

end Frame

section Completion
variable {s : State} (ha : s.Alive) (hs : s.FixedSession)
include ha hs

/-- The bus address of `v` is in the bus domain, so the read of a fixed-mapping session cannot fault (R83). -/
theorem execPpudataR_fixed (m : BitVec 10) : ∃ t, execPpudataR m s = .next t := by
  obtain ⟨d, hd⟩ := pbRead_fixed hs (vBusAddr_lt s.ppu.v)
  rw [execPpudataR, live_of_alive ha, hd]
  exact ⟨_, rfl⟩

/-- The bus address of `v` is in the bus domain, so the write of a fixed-mapping session cannot fault (R84). -/
theorem execPpudataW_fixed (m : BitVec 10) (b : Byte) : ∃ t, execPpudataW m b s = .next t := by
  obtain ⟨u, hu⟩ := pbWrite_fixed hs (b := b) (vBusAddr_lt s.ppu.v)
  rw [execPpudataW, live_of_alive ha, hu]
  exact ⟨_, rfl⟩

/-- The source of a DMA is a page-aligned view, which never faults in a fixed-mapping session, or a CPU page (R85). -/
theorem execOamdmaW_fixed (n : Byte) : ∃ t, execOamdmaW n s = .next t := by
  rw [execOamdmaW, live_of_alive ha]
  split
  · rename_i hn
    rw [getPagePtr_fixed hs hn]
    exact ⟨_, rfl⟩
  · exact ⟨_, rfl⟩

/-- R72: a port operation completes at every position of a live fixed-mapping session. -/
theorem exec_portOp_fixed {i : Instr} (hi : isPortOp i = true) : ∃ t, exec i s = .next t := by
  cases i with
  | ppuctrlW _ _ | ppumaskW _ _ | ppustatusW _ _ | oamaddrW _ _ | oamdataW _ _ | ppuscrollW _ _ | ppuaddrW _ _ =>
    exact ⟨_, ppuWrite_of_alive ha _⟩
  | ppuctrlR _ | ppumaskR _ | oamaddrR _ | ppuscrollR _ | ppuaddrR _ | oamdmaR => exact ⟨_, live_of_alive ha⟩
  | ppustatusR _ | oamdataR _ => exact ⟨_, live_of_alive ha⟩
  | ppudataR m => exact execPpudataR_fixed ha hs m
  | ppudataW m b => exact execPpudataW_fixed ha hs m b
  | oamdmaW n => exact execOamdmaW_fixed ha hs n
  | _ => cases hi

end Completion

/-- Settles O12: the completion lemma, the frame of R72, and that a next state needs a live session. -/
theorem portOperationsKeepThePosition : Obligations.PortOperationsKeepThePosition := by
  intro i s hi
  refine ⟨fun ha hs => exec_portOp_fixed ha hs hi, fun t h => ?_, fun hf t h => ?_⟩
  · obtain ⟨-, frame⟩ := exec_portOp_next hi h
    obtain ⟨phase, scanline, dot, evenFrame⟩ := Ppu.position_eq_iff.mp frame.position
    exact ⟨phase, scanline, dot, evenFrame, frame.nmi, frame.result⟩
  · obtain ⟨ha, -⟩ := exec_portOp_next hi h
    exact hf ha

end Sys2Proof.Machine

/-! PROOF. The vertical increment (R99). Each of its parts writes some of the fields of R61 and keeps the others; the
increment is read off field by field. -/

namespace Sys2Proof.Machine

section VerticalIncrement
variable (v : BitVec 15)

@[simp] theorem coarseY_withCoarseY (y : BitVec 5) : coarseY (withCoarseY v y) = y := by
  refine BitVec.eq_of_getLsbD_eq fun k hk => ?_
  interval_cases k <;> simp [coarseY, withCoarseY]

@[simp] theorem fineY_withCoarseY (y : BitVec 5) : fineY (withCoarseY v y) = fineY v := by
  refine BitVec.eq_of_getLsbD_eq fun k hk => ?_
  interval_cases k <;> simp [fineY, withCoarseY]

@[simp] theorem coarseX_withCoarseY (y : BitVec 5) : coarseX (withCoarseY v y) = coarseX v := by
  refine BitVec.eq_of_getLsbD_eq fun k hk => ?_
  interval_cases k <;> simp [coarseX, withCoarseY]

theorem withCoarseY_nametable (y : BitVec 5) :
    (withCoarseY v y).getLsbD 10 = v.getLsbD 10 ∧ (withCoarseY v y).getLsbD 11 = v.getLsbD 11 := by
  simp [withCoarseY]

/-- What the carry of `incY` writes coarse Y into (`incY_of_carry`): fine Y cleared, and the vertical nametable bit
flipped where `flip` says so. -/
def carryBase (flip : Bool) : BitVec 15 :=
  if flip then (v &&& ~~~0x7000#15) ^^^ 0x0800#15 else v &&& ~~~0x7000#15

@[simp] theorem fineY_carryBase (flip : Bool) : fineY (carryBase v flip) = 0#3 := by
  refine BitVec.eq_of_getLsbD_eq fun k hk => ?_
  cases flip <;> interval_cases k <;> simp [fineY, carryBase]

@[simp] theorem coarseX_carryBase (flip : Bool) : coarseX (carryBase v flip) = coarseX v := by
  refine BitVec.eq_of_getLsbD_eq fun k hk => ?_
  cases flip <;> interval_cases k <;> simp [coarseX, carryBase]

theorem carryBase_nametable (flip : Bool) :
    (carryBase v flip).getLsbD 10 = v.getLsbD 10 ∧ (carryBase v flip).getLsbD 11 = (v.getLsbD 11 ^^ flip) := by
  cases flip <;> simp [carryBase]

/-- Clearing fine Y leaves the coarse Y that the carry looks at. -/
theorem coarseY_clear_fineY : coarseY (v &&& ~~~0x7000#15) = coarseY v := by
  refine BitVec.eq_of_getLsbD_eq fun k hk => ?_
  interval_cases k <;> simp [coarseY]

theorem fineY_add_one : fineY (v + 0x1000#15) = fineY v + 1#3 := by
  apply BitVec.eq_of_toNat_eq
  simp only [fineY, BitVec.toNat_add, BitVec.toNat_ofNat, BitVec.extractLsb'_toNat, Nat.shiftRight_eq_div_pow]
  omega

/-- The step of fine Y keeps every bit below it. -/
theorem add_one_fineY_low {k : Nat} (hk : k < 12) : (v + 0x1000#15).getLsbD k = v.getLsbD k := by
  have low : (v + 0x1000#15).toNat % 2 ^ 12 = v.toNat % 2 ^ 12 := by
    rw [BitVec.toNat_add, BitVec.toNat_ofNat]
    omega
  have bits := congrArg (Nat.testBit · k) low
  simpa only [Nat.testBit_mod_two_pow, hk, decide_true, Bool.true_and, BitVec.testBit_toNat] using bits

variable {v}

/-- Where fine Y does not wrap, it counts on alone. -/
theorem incY_of_no_carry (hf : fineY v ≠ 7#3) : incY v = v + 0x1000#15 := if_pos hf

/-- Where fine Y wraps, coarse Y counts on, and 29 alone flips the nametable bit (R99). -/
theorem incY_of_carry (hf : fineY v = 7#3) :
    incY v = withCoarseY (carryBase v (decide (coarseY v = 29#5)))
      (if coarseY v = 29#5 ∨ coarseY v = 31#5 then 0#5 else coarseY v + 1#5) := by
  simp only [incY, hf, ne_eq, not_true_eq_false, if_false, coarseY_clear_fineY]
  by_cases h29 : coarseY v = 29#5
  · simp [h29, carryBase]
  · by_cases h31 : coarseY v = 31#5 <;> simp [h29, h31, carryBase]

variable (v)

theorem incY_fineY : fineY (incY v) = fineY v + 1#3 := by
  by_cases hf : fineY v = 7#3
  · simp [incY_of_carry hf, hf]
  · rw [incY_of_no_carry hf, fineY_add_one]

theorem incY_coarseX : coarseX (incY v) = coarseX v := by
  by_cases hf : fineY v = 7#3
  · simp [incY_of_carry hf]
  · refine BitVec.eq_of_getLsbD_eq fun k hk => ?_
    simp [incY_of_no_carry hf, coarseX, add_one_fineY_low v (k := k) (by omega)]

theorem incY_coarseY :
    coarseY (incY v) = if fineY v = 7#3 then
      (if coarseY v = 29#5 ∨ coarseY v = 31#5 then 0#5 else coarseY v + 1#5) else coarseY v := by
  by_cases hf : fineY v = 7#3
  · simp [incY_of_carry hf, hf]
  · refine BitVec.eq_of_getLsbD_eq fun k hk => ?_
    simp [incY_of_no_carry hf, hf, coarseY, add_one_fineY_low v (k := 5 + k) (by omega)]

theorem incY_nametable :
    (incY v).getLsbD 10 = v.getLsbD 10
      ∧ (incY v).getLsbD 11 = (v.getLsbD 11 ^^ decide (fineY v = 7#3 ∧ coarseY v = 29#5)) := by
  by_cases hf : fineY v = 7#3
  · obtain ⟨c10, c11⟩ := carryBase_nametable v (decide (coarseY v = 29#5))
    obtain ⟨w10, w11⟩ := withCoarseY_nametable (carryBase v (decide (coarseY v = 29#5)))
      (if coarseY v = 29#5 ∨ coarseY v = 31#5 then 0#5 else coarseY v + 1#5)
    rw [incY_of_carry hf, w10, w11, c10, c11]
    simp [hf]
  · rw [incY_of_no_carry hf, add_one_fineY_low v (by omega), add_one_fineY_low v (by omega)]
    simp [hf]

end VerticalIncrement

/-- Settles O52: each field of the increment by its own lemma, and the fields compared as numbers. -/
theorem verticalIncrementByFields : Obligations.VerticalIncrementByFields := by
  intro v
  obtain ⟨bit10, bit11⟩ := incY_nametable v
  have coarse := congrArg BitVec.toNat (incY_coarseY v)
  have counts (h31 : (coarseY v).toNat ≠ 31) : (coarseY v + 1#5).toNat = (coarseY v).toNat + 1 := by
    rw [BitVec.toNat_add, BitVec.toNat_ofNat]
    omega
  simp only [← BitVec.toNat_inj, apply_ite BitVec.toNat] at bit11 coarse
  refine ⟨congrArg BitVec.toNat (incY_fineY v), coarse.trans ?_, bit11, bit10, incY_coarseX v⟩
  refine ite_congr rfl (fun _ => ite_congr rfl (fun _ => rfl) fun h => counts fun h31 => h (.inr h31)) fun _ => rfl

end Sys2Proof.Machine

/-! PROOF. The dots of PreRender and the Render dots that draw nothing (R90 to R97, R108). The action of the dot, the end
of its line and the advance are stated each once; a dot is their composition. -/

namespace Sys2Proof.Machine

section Dots
variable {s : State} {par : Params} {p : Ppu}

/-- The model's test for "rendering enabled" is that of R88. -/
theorem renderingEnabled_iff (s : State) : renderingEnabled s.par s.ppu = true ↔ s.RenderingOn := by
  cases h : s.par.renderEnable <;> simp [renderingEnabled, State.RenderingOn, h]

theorem advance_lineEnd (par : Params) (p : Ppu) : advance par true p = { p with dot := lineStart par } := rfl

theorem advance_withinLine (par : Params) (p : Ppu) : advance par false p = { p with dot := p.dot + 1#9 } := rfl

/-- Only a VerticalBlank dot emits the interrupt signal, so any other dot of a live session changes the PPU alone. -/
theorem exec_cycle_of_dotStep (ha : s.Alive) (hp : s.ppu.phase ≠ .verticalBlank) (h : dotStep s = .ok p) :
    exec .cycle s = .next { s with ppu := p, result := .nothing } := by
  have silent : emitsInterrupt s.ppu = false := by simp [emitsInterrupt, hp]
  simp [exec, execCycle, live_of_alive ha, h, silent, finish]

/-- `v` after a PreRender dot (R91, R92): what `preRenderAction` leaves there (`preRenderAction_eq`). -/
def preRenderV (par : Params) (p : Ppu) : BitVec 15 :=
  if renderingEnabled par p then
    if p.dot = 258#9 then copyH p.v p.t
    else if 281 ≤ p.dot.toNat ∧ p.dot.toNat ≤ 304 then copyV p.v p.t
    else p.v
  else p.v

theorem preRenderV_horizontal (hr : renderingEnabled par p = true) (hd : p.dot = 258#9) :
    preRenderV par p = copyH p.v p.t := by
  simp [preRenderV, hr, hd]

theorem preRenderV_vertical (hr : renderingEnabled par p = true) (hd : 281 ≤ p.dot.toNat ∧ p.dot.toNat ≤ 304) :
    preRenderV par p = copyV p.v p.t := by
  have h258 : p.dot ≠ 258#9 := fun h => by simp [h] at hd
  simp [preRenderV, hr, hd, h258]

theorem preRenderV_kept
    (h : ¬(renderingEnabled par p = true ∧ (p.dot = 258#9 ∨ 281 ≤ p.dot.toNat ∧ p.dot.toNat ≤ 304))) :
    preRenderV par p = p.v := by
  unfold preRenderV
  split_ifs with hr h258 hrange
  · exact absurd ⟨hr, .inl h258⟩ h
  · exact absurd ⟨hr, .inr hrange⟩ h
  · rfl
  · rfl

/-- The PreRender action changes `v` and, at dot 1, the flags (R90 to R92). -/
theorem preRenderAction_eq (par : Params) (p : Ppu) :
    preRenderAction par p = if p.dot = 1#9 then { p with v := preRenderV par p, vblank := false, sprZeroHit := false }
      else { p with v := preRenderV par p } := by
  by_cases h1 : p.dot = 1#9
  · simp [preRenderAction, clearStatusFlags, preRenderV, h1]
  · simp only [preRenderAction, preRenderV, horizontalCopy, verticalCopy, BitVec.le_def, BitVec.toNat_ofNat, h1,
      if_false]
    split_ifs <;> rfl

theorem preRenderEnds_action (par : Params) (p : Ppu) :
    preRenderEnds par (preRenderAction par p) = preRenderEnds par p := by
  rw [preRenderAction_eq]
  split <;> rfl

/-- The PreRender line ends as R93 says. -/
theorem preRenderEnds_iff (s : State) :
    preRenderEnds s.par s.ppu = true
      ↔ s.ppu.dot = 340#9 ∨ (s.ppu.dot = 339#9 ∧ s.ppu.evenFrame = false ∧ s.RenderingOn) := by
  simp [preRenderEnds, ← renderingEnabled_iff, and_comm]

theorem preRenderDot_of_ends (h : preRenderEnds par p = true) :
    preRenderDot par p
      = { p with phase := .render, scanline := 0#9, dot := lineStart par, v := preRenderV par p } := by
  have h1 : p.dot ≠ 1#9 := fun h1 => by simp [preRenderEnds, h1] at h
  rw [preRenderDot, preRenderEnds_action, h, preRenderAction_eq, if_neg h1]
  rfl

theorem preRenderDot_of_not_ends (h : preRenderEnds par p ≠ true) :
    preRenderDot par p = advance par false (preRenderAction par p) := by
  rw [preRenderDot, preRenderEnds_action, if_neg h]

/-- A PreRender dot of a live session is `preRenderDot` and nothing else. -/
theorem exec_cycle_preRender (ha : s.Alive) (hp : s.ppu.phase = .preRender) (h : preRenderDot s.par s.ppu = p) :
    exec .cycle s = .next { s with ppu := p, result := .nothing } :=
  exec_cycle_of_dotStep ha (by simp [hp]) (by simp [dotStep, hp, h])

/-- A Render dot that draws nothing and is not the last of its line: the action's new `v`, and the next dot. -/
theorem exec_cycle_render_withinLine (ha : s.Alive) (hp : s.ppu.phase = .render) (hd : s.ppu.dot ≠ 340#9)
    {v : BitVec 15} (h : renderAction s = .ok { s.ppu with v := v }) :
    exec .cycle s = .next { s with ppu := { s.ppu with dot := s.ppu.dot + 1#9, v := v }, result := .nothing } :=
  exec_cycle_of_dotStep ha (by simp [hp]) (by simp [dotStep, hp, renderDot, h, hd, advance_withinLine])

/-- The last dot of a Render line, whose action is none (R97). -/
theorem exec_cycle_render_lineEnd (ha : s.Alive) (hp : s.ppu.phase = .render) (hd : s.ppu.dot = 340#9)
    (h : renderAction s = .ok s.ppu) :
    exec .cycle s
      = .next { s with ppu := { renderLineEnd s.ppu with dot := lineStart s.par }, result := .nothing } :=
  exec_cycle_of_dotStep ha (by simp [hp]) (by simp [dotStep, hp, renderDot, h, hd, advance_lineEnd])

/-- Away from the visible dots the Render action draws nothing (R94 to R96). -/
theorem renderAction_blanking (hd : s.ppu.dot = 0#9 ∨ 257 ≤ s.ppu.dot.toNat) :
    renderAction s =
      if s.ppu.dot = 257#9 then .ok (if s.ppu.showBackground then { s.ppu with v := incY s.ppu.v } else s.ppu)
      else if s.ppu.dot = 258#9 then .ok (horizontalCopy s.par s.ppu)
      else .ok s.ppu :=
  if_neg (by bv_omega)

theorem renderAction_dot257 (hd : s.ppu.dot = 257#9) :
    renderAction s = .ok { s.ppu with v := if s.ppu.showBackground then incY s.ppu.v else s.ppu.v } := by
  rw [renderAction_blanking (by simp [hd]), if_pos hd]
  split <;> rfl

theorem renderAction_dot258 (hd : s.ppu.dot = 258#9) :
    renderAction s
      = .ok { s.ppu with v := if renderingEnabled s.par s.ppu then copyH s.ppu.v s.ppu.t else s.ppu.v } := by
  rw [renderAction_blanking (by simp [hd]), if_neg (by simp [hd]), if_pos hd, horizontalCopy]
  split <;> rfl

theorem renderAction_idle (hd : s.ppu.dot = 0#9 ∨ 257 ≤ s.ppu.dot.toNat) (h257 : s.ppu.dot ≠ 257#9)
    (h258 : s.ppu.dot ≠ 258#9) : renderAction s = .ok s.ppu := by
  rw [renderAction_blanking hd, if_neg h257, if_neg h258]

end Dots

/-- Settles O47: the action does not change whether the line ends, so the end of the line and the advance follow it. -/
theorem preRenderDotActions : Obligations.PreRenderDotActions := by
  intro s ha hp
  rw [← preRenderEnds_iff, ← renderingEnabled_iff]
  intro ends
  refine ⟨preRenderV s.par s.ppu, fun ⟨hd, hr⟩ => preRenderV_horizontal hr hd,
    fun ⟨hlo, hhi, hr⟩ => preRenderV_vertical hr ⟨hlo, hhi⟩, preRenderV_kept,
    fun h => exec_cycle_preRender ha hp (preRenderDot_of_ends h), fun h h1 => ?_, fun h h1 => ?_⟩
  · apply exec_cycle_preRender ha hp
    rw [preRenderDot_of_not_ends h, preRenderAction_eq, if_pos h1, advance_withinLine, h1]
    rfl
  · apply exec_cycle_preRender ha hp
    rw [preRenderDot_of_not_ends h, preRenderAction_eq, if_neg h1, advance_withinLine]

/-- Settles O49: one action for each of the dots 257 and 258, none at any other, and the end of the line at 340. -/
theorem blankingDotsOfARenderLine : Obligations.BlankingDotsOfARenderLine := by
  intro s ha hp hd
  rw [← renderingEnabled_iff]
  refine ⟨fun h257 => ?_, fun h258 => ?_, fun h340 => ?_, fun h257 h258 h340 => ?_⟩
  · have step := exec_cycle_render_withinLine ha hp (by simp [h257]) (renderAction_dot257 h257)
    rwa [h257] at step
  · have step := exec_cycle_render_withinLine ha hp (by simp [h258]) (renderAction_dot258 h258)
    rw [h258] at step
    exact ⟨_, step, fun hr => if_pos hr, fun hr => if_neg hr⟩
  · have last : s.ppu.scanline + 1#9 = 240#9 ↔ s.ppu.scanline = 239#9 := by bv_omega
    rw [exec_cycle_render_lineEnd ha hp h340 (renderAction_idle hd (by simp [h340]) (by simp [h340]))]
    simp only [renderLineEnd, last, hp]
  · exact exec_cycle_render_withinLine ha hp h340 (renderAction_idle hd h257 h258)

end Sys2Proof.Machine

/-! PROOF. The CPU read of the PRG window in the fixed variant (R118, R125, R126). The address of the window starts at
`0x8000`, and the offset drops its top bit when the cartridge has one bank. -/

namespace Sys2Proof.Machine

/-- The address of the PRG window as a number. -/
theorem prgWindowAddr_toNat (a : BitVec 15) : (prgWindowAddr a).toNat = 0x8000 + a.toNat := by
  rw [prgWindowAddr, toNat_append_eq]
  rfl

theorem prgWindowAddr_ge (a : BitVec 15) : 0x8000#16 ≤ prgWindowAddr a :=
  BitVec.not_lt.mp (prgWindowAddr_inDomain a)

/-- The window's address back as its place in the window. -/
theorem prgWindowAddr_sub (a : BitVec 15) : (prgWindowAddr a - 0x8000#16).toNat = a.toNat := by
  rw [BitVec.toNat_sub_of_le (prgWindowAddr_ge a), prgWindowAddr_toNat]
  exact Nat.add_sub_cancel_left _ _

/-- The offset of a place in the window: the place itself, or mirrored at 16 KiB with one bank (R125). -/
theorem fixedPrgOffset_prgWindowAddr (one : Bool) (a : BitVec 15) :
    fixedPrgOffset one (prgWindowAddr a) = if one then a.toNat % 0x4000 else a.toNat := by
  cases one with
  | true =>
    change ((prgWindowAddr a - 0x8000#16) &&& 0x3FFF#16).toNat = a.toNat % 0x4000
    rw [BitVec.toNat_and, prgWindowAddr_sub]
    exact Nat.and_two_pow_sub_one_eq_mod _ 14
  | false => exact prgWindowAddr_sub a

theorem prgOffset_fixed {s : State} {one : Bool} {ram : Option ByteMemory} (h : s.mapper = .fixed one ram) (a : Addr) :
    prgOffset s a = fixedPrgOffset one a := by
  rw [prgOffset, h]

/-- A PRG read of a live fixed-mapping session completes with the byte at the resolved offset (R126). -/
theorem execPrgR_fixed {s : State} (ha : s.Alive) (hs : s.FixedSession) (a : BitVec 15) :
    execPrgR a s
      = .next { s with result := .byte (Memory.read s.cart.prg.cells (prgOffset s (prgWindowAddr a))) } := by
  rw [execPrgR, live_of_alive ha, readPRG_fixed hs (prgWindowAddr_ge a)]
  rfl

/-- Settles O30: the read completes with the byte at the resolved offset, and the offset is the place in the window. -/
theorem prgReadResolvesTheBank : Obligations.PrgReadResolvesTheBank := by
  intro a s ha hs one ram hm
  rw [← fixedPrgOffset_prgWindowAddr, ← prgOffset_fixed hm]
  exact execPrgR_fixed ha hs a

end Sys2Proof.Machine

/-! PROOF. Decoding and encoding (R53 to R55, R67). -/

namespace Sys2Proof

theorem extract_bit_eq_one {w : Nat} (a : BitVec w) (k : Nat) : a.extractLsb' k 1 = 1#1 ↔ a.getLsbD k = true := by
  rw [← BitVec.toNat_inj, BitVec.extractLsb'_toNat, ← BitVec.testBit_toNat, Nat.testBit_eq_decide_div_mod_eq,
    Nat.shiftRight_eq_div_pow]
  simp

theorem extract_bit_eq_zero {w : Nat} (a : BitVec w) (k : Nat) :
    a.extractLsb' k 1 = 0#1 ↔ a.getLsbD k = false := by
  rw [← Bool.not_eq_true, ← extract_bit_eq_one, ← BitVec.toNat_inj, ← BitVec.toNat_inj]
  simp only [BitVec.toNat_ofNat]
  omega

section Spaces
variable {c : Call}

theorem decode_cpuRead (hs : twSpace c.tw = 0#2) (hp : twP c.tw = 0#1) (hw : twW c.tw = 0#1) :
    decode c = decodeCpuRead (twA c.tw) := by
  simp [decode, hs, hp, hw]

theorem decode_cpuWrite (hs : twSpace c.tw = 0#2) (hp : twP c.tw = 0#1) (hw : twW c.tw = 1#1) :
    decode c = decodeCpuWrite (twA c.tw) c.data := by
  simp [decode, hs, hp, hw]

theorem decode_busRead (hs : twSpace c.tw = 1#2) (hp : twP c.tw = 0#1) (hw : twW c.tw = 0#1) :
    decode c = .instr (decodeBusRead (twA c.tw)) := by
  simp [decode, hs, hp, hw]

theorem decode_busWrite (hs : twSpace c.tw = 1#2) (hp : twP c.tw = 0#1) (hw : twW c.tw = 1#1) :
    decode c = .instr (decodeBusWrite (twA c.tw) c.data) := by
  simp [decode, hs, hp, hw]

theorem decode_paletteRead (hs : twSpace c.tw = 1#2) (hp : twP c.tw = 1#1) (hw : twW c.tw = 0#1) :
    decode c = decodePaletteRead (twA c.tw) := by
  simp [decode, hs, hp, hw]

theorem decode_hostCall (hs : twSpace c.tw = 2#2) (hp : twP c.tw = 0#1) (hw : twW c.tw = 0#1) :
    decode c = decodeHostCall c := by
  simp [decode, hs, hp, hw]

end Spaces

section Ranges
variable (a : Addr)

/-- The CPU addresses of the PPU ports (R55). -/
theorem portRange_iff : a.extractLsb' 13 3 = 1#3 ↔ 0x2000 ≤ a.toNat ∧ a.toNat < 0x4000 := by
  have := a.isLt
  rw [← BitVec.toNat_inj, BitVec.extractLsb'_toNat, Nat.shiftRight_eq_div_pow, BitVec.toNat_ofNat]
  omega

/-- The upper half of the address space: the PRG window of the CPU bus (R55), and the part of R68 (f) above `0x7FFF`. -/
theorem upperHalf_iff : a.extractLsb' 15 1 = 1#1 ↔ 0x8000 ≤ a.toNat := by
  have := a.isLt
  rw [← BitVec.toNat_inj, BitVec.extractLsb'_toNat, Nat.shiftRight_eq_div_pow, BitVec.toNat_ofNat]
  omega

/-- The addresses that are a palette index (R54). -/
theorem paletteRange_iff : a.extractLsb' 5 11 = 0#11 ↔ a.toNat < 32 := by
  have := a.isLt
  rw [← BitVec.toNat_inj, BitVec.extractLsb'_toNat, Nat.shiftRight_eq_div_pow, BitVec.toNat_ofNat]
  omega

theorem decodeCpuRead_eq : decodeCpuRead a =
    if 0x2000 ≤ a.toNat ∧ a.toNat < 0x4000 then .instr (decodePortRead (a.extractLsb' 0 3) (a.extractLsb' 3 10))
    else if a.toNat = 0x4014 then .instr .oamdmaR
    else if a.toNat = 0x4016 then .instr .ctrl1R
    else if a.toNat = 0x4017 then .instr .ctrl2R
    else if 0x8000 ≤ a.toNat then .instr (.prgR (a.extractLsb' 0 15))
    else .refused .notInBlock := by
  simp only [decodeCpuRead, portRange_iff, upperHalf_iff]
  simp only [← BitVec.toNat_inj]
  rfl

theorem decodeCpuWrite_eq (b : Byte) : decodeCpuWrite a b =
    if 0x2000 ≤ a.toNat ∧ a.toNat < 0x4000 then .instr (decodePortWrite (a.extractLsb' 0 3) (a.extractLsb' 3 10) b)
    else if a.toNat = 0x4014 then .instr (.oamdmaW b)
    else if a.toNat = 0x4016 then .instr (.ctrlStrobeW b)
    else if 0x8000 ≤ a.toNat then .instr (.prgW (a.extractLsb' 0 15) b)
    else .refused .notInBlock := by
  simp only [decodeCpuWrite, portRange_iff, upperHalf_iff]
  simp only [← BitVec.toNat_inj]
  rfl

end Ranges

section Rows
variable (m : BitVec 10) (b : Byte)

theorem decodeCpuRead_portAddr (port : BitVec 3) :
    decodeCpuRead (portAddr m port) = .instr (decodePortRead port m) := by
  simp [decodeCpuRead]

theorem decodeCpuWrite_portAddr (port : BitVec 3) :
    decodeCpuWrite (portAddr m port) b = .instr (decodePortWrite port m b) := by
  simp [decodeCpuWrite]

theorem decodeCpuRead_window (a : BitVec 15) : decodeCpuRead (1#1 ++ a) = .instr (.prgR a) := by
  have h : (1#1 ++ a : Addr).toNat = 0x8000 + a.toNat := toNat_append_eq _ _
  rw [decodeCpuRead_eq, if_neg (by omega), if_neg (by omega), if_neg (by omega), if_neg (by omega), if_pos (by omega),
    extract_low_append]

theorem decodeCpuWrite_window (a : BitVec 15) : decodeCpuWrite (1#1 ++ a) b = .instr (.prgW a b) := by
  have h : (1#1 ++ a : Addr).toNat = 0x8000 + a.toNat := toNat_append_eq _ _
  rw [decodeCpuWrite_eq, if_neg (by omega), if_neg (by omega), if_neg (by omega), if_pos (by omega),
    extract_low_append]

theorem decodePaletteRead_index (i : BitVec 5) : decodePaletteRead (0#11 ++ i) = .instr (.pbRdpal i) := by
  have h : (0#11 ++ i : Addr).toNat = i.toNat := (toNat_append_eq _ _).trans (by simp)
  rw [decodePaletteRead, if_pos ((paletteRange_iff _).mpr (by omega)), extract_low_append]

end Rows

/-- The encoding of an operation lands in the branch of its space and direction, at its own address (R67). -/
theorem decode_encode (i : Instr) : decode (encode i) = .instr i := by
  cases i with
  | ppuctrlR m | ppumaskR m | ppustatusR m | oamaddrR m | oamdataR m | ppuscrollR m | ppuaddrR m | ppudataR m =>
    simp only [encode, callPlain, decode_cpuRead, twSpace_twOf, twP_twOf, twW_twOf, twA_twOf, decodeCpuRead_portAddr]
    rfl
  | ppuctrlW m b | ppumaskW m b | ppustatusW m b | oamaddrW m b | oamdataW m b | ppuscrollW m b | ppuaddrW m b
  | ppudataW m b =>
    simp only [encode, callData, decode_cpuWrite, twSpace_twOf, twP_twOf, twW_twOf, twA_twOf, decodeCpuWrite_portAddr]
    rfl
  | prgR a =>
    simp only [encode, callPlain, decode_cpuRead, twSpace_twOf, twP_twOf, twW_twOf, twA_twOf, decodeCpuRead_window]
  | prgW a b =>
    simp only [encode, callData, decode_cpuWrite, twSpace_twOf, twP_twOf, twW_twOf, twA_twOf, decodeCpuWrite_window]
  | pbPatR a | pbNtR a | pbNtR3000 a | pbNtR3800 a | pbNtR3C00 a | pbNtR3E00 a | pbPalR a | pbOodR a | pbOodR8000 a =>
    simp only [encode, callPlain, decode_busRead, twSpace_twOf, twP_twOf, twW_twOf, twA_twOf, Decoded.instr.injEq]
    simp only [decodeBusRead, extract_bit_eq_one, extract_bit_eq_zero, BitVec.getLsbD_append]
    simp
    rw [extract_low_append]
  | pbPatW a b | pbNtW a b | pbNtW3000 a b | pbNtW3800 a b | pbNtW3C00 a b | pbNtW3E00 a b | pbPalW a b | pbOodW a b
  | pbOodW8000 a b =>
    simp only [encode, callData, decode_busWrite, twSpace_twOf, twP_twOf, twW_twOf, twA_twOf, Decoded.instr.injEq]
    simp only [decodeBusWrite, extract_bit_eq_one, extract_bit_eq_zero, BitVec.getLsbD_append]
    simp
    rw [extract_low_append]
  | pbRdpal a =>
    simp only [encode, callPlain, decode_paletteRead, twSpace_twOf, twP_twOf, twW_twOf, twA_twOf,
      decodePaletteRead_index]
  | oamdmaW b | ctrlStrobeW b =>
    simp only [encode, callData, decode_cpuWrite, twSpace_twOf, twP_twOf, twW_twOf, twA_twOf]
    rfl
  | buttons1 b | buttons2 b | fbread x y =>
    simp [encode, callData, decode_hostCall, decodeHostCall]
  | oamdmaR | ctrl1R | ctrl2R | cycle | reset => rfl

/-- A word is its low field under the number that stands above it. -/
theorem append_extract_low {m n : Nat} (x : BitVec m) (a : BitVec (m + n)) (h : x.toNat = a.toNat / 2 ^ n) :
    x ++ a.extractLsb' 0 n = a := by
  apply BitVec.eq_of_toNat_eq
  rw [toNat_append_eq, BitVec.extractLsb'_toNat, Nat.shiftRight_zero, h, Nat.div_add_mod']

theorem encode_decodePortRead (port : BitVec 3) (m : BitVec 10) :
    encode (decodePortRead port m) = callPlain (twOf 0#2 0#1 0#1 (portAddr m port)) := by
  unfold decodePortRead
  split_ifs with h0 h1 h2 h3 h4 h5 h6
  any_goals subst port; rfl
  obtain rfl : port = 7#3 := by bv_omega
  rfl

theorem encode_decodePortWrite (port : BitVec 3) (m : BitVec 10) (b : Byte) :
    encode (decodePortWrite port m b) = callData (twOf 0#2 0#1 1#1 (portAddr m port)) b := by
  unfold decodePortWrite
  split_ifs with h0 h1 h2 h3 h4 h5 h6
  any_goals subst port; rfl
  obtain rfl : port = 7#3 := by bv_omega
  rfl

theorem extract_bit_one_iff_mod {w : Nat} (a : BitVec w) (k : Nat) :
    a.extractLsb' k 1 = 1#1 ↔ a.toNat / 2 ^ k % 2 = 1 := by
  rw [← BitVec.toNat_inj, BitVec.extractLsb'_toNat, Nat.shiftRight_eq_div_pow]
  simp

theorem extract_bit_zero_iff_mod {w : Nat} (a : BitVec w) (k : Nat) :
    a.extractLsb' k 1 = 0#1 ↔ a.toNat / 2 ^ k % 2 = 0 := by
  rw [← BitVec.toNat_inj, BitVec.extractLsb'_toNat, Nat.shiftRight_eq_div_pow]
  simp

theorem encode_decodeBusRead (a : Addr) : encode (decodeBusRead a) = callPlain (twOf 1#2 0#1 0#1 a) := by
  have := a.isLt
  simp only [decodeBusRead, extract_bit_one_iff_mod, extract_bit_zero_iff_mod]
  split_ifs <;>
    exact congrArg (fun A => callPlain (twOf 1#2 0#1 0#1 A)) (append_extract_low _ _ (by
      simp only [BitVec.toNat_ofNat]; omega))

theorem encode_decodeBusWrite (a : Addr) (b : Byte) :
    encode (decodeBusWrite a b) = callData (twOf 1#2 0#1 1#1 a) b := by
  have := a.isLt
  simp only [decodeBusWrite, extract_bit_one_iff_mod, extract_bit_zero_iff_mod]
  split_ifs <;>
    exact congrArg (fun A => callData (twOf 1#2 0#1 1#1 A) b) (append_extract_low _ _ (by
      simp only [BitVec.toNat_ofNat]; omega))

theorem encode_decodeCpuRead {a : Addr} {i : Instr} (h : decodeCpuRead a = .instr i) :
    encode i = callPlain (twOf 0#2 0#1 0#1 a) := by
  have := a.isLt
  rw [decodeCpuRead_eq] at h
  split_ifs at h with hport hdma h1 h2 hprg <;> injection h with h <;> subst i
  · rw [encode_decodePortRead, portAddr_fields a ((portRange_iff a).mpr hport)]
  · rw [BitVec.eq_of_toNat_eq (y := 0x4014#16) hdma]; rfl
  · rw [BitVec.eq_of_toNat_eq (y := 0x4016#16) h1]; rfl
  · rw [BitVec.eq_of_toNat_eq (y := 0x4017#16) h2]; rfl
  · exact congrArg (fun A => callPlain (twOf 0#2 0#1 0#1 A)) (append_extract_low _ _ (by
      simp only [BitVec.toNat_ofNat]; omega))

theorem encode_decodeCpuWrite {a : Addr} {b : Byte} {i : Instr} (h : decodeCpuWrite a b = .instr i) :
    encode i = callData (twOf 0#2 0#1 1#1 a) b := by
  have := a.isLt
  rw [decodeCpuWrite_eq] at h
  split_ifs at h with hport hdma h1 hprg <;> injection h with h <;> subst i
  · rw [encode_decodePortWrite, portAddr_fields a ((portRange_iff a).mpr hport)]
  · rw [BitVec.eq_of_toNat_eq (y := 0x4014#16) hdma]; rfl
  · rw [BitVec.eq_of_toNat_eq (y := 0x4016#16) h1]; rfl
  · exact congrArg (fun A => callData (twOf 0#2 0#1 1#1 A) b) (append_extract_low _ _ (by
      simp only [BitVec.toNat_ofNat]; omega))

theorem encode_decodePaletteRead {a : Addr} {i : Instr} (h : decodePaletteRead a = .instr i) :
    encode i = callPlain (twOf 1#2 1#1 0#1 a) := by
  simp only [decodePaletteRead, paletteRange_iff] at h
  split_ifs at h with hi
  injection h with h
  subst i
  exact congrArg (fun A => callPlain (twOf 1#2 1#1 0#1 A)) (append_extract_low _ _ (by
    simp only [BitVec.toNat_ofNat]; omega))

/-- What a host call that decodes to an operation tells (R54). -/
theorem encode_decodeHostCall {c : Call} {i : Instr} (h : decodeHostCall c = .instr i) :
    (encode i).tw = twOf 2#2 0#1 0#1 (twA c.tw)
      ∧ (twA c.tw = 2#16 ∨ twA c.tw = 3#16 → (encode i).data = c.data)
      ∧ ∀ x y, i = .fbread x y → x = c.x ∧ y = c.y := by
  unfold decodeHostCall at h
  dsimp only at h
  split_ifs at h with h0 h1 h2 h3 h4 <;> injection h with h <;> subst i
  · rw [h0]; exact ⟨rfl, fun e => absurd e (by decide), nofun⟩
  · rw [h1]; exact ⟨rfl, fun e => absurd e (by decide), nofun⟩
  · rw [h2]; exact ⟨rfl, fun _ => rfl, nofun⟩
  · rw [h3]; exact ⟨rfl, fun _ => rfl, nofun⟩
  · rw [h4]
    refine ⟨rfl, fun e => absurd e (by decide), fun _ _ h => ?_⟩
    injection h with hx hy
    exact ⟨hx.symm, hy.symm⟩

end Sys2Proof

/-! PROOF. The word of a decoded call and the opcode table (R67). -/

namespace Sys2Proof

theorem bit_of_ne_one {b : BitVec 1} (h : b ≠ 1#1) : b = 0#1 := by bv_omega

/-- Which branch of the decoder gave an operation, and what the encoder makes of it (R67). -/
theorem decode_instr {c : Call} {i : Instr} (h : decode c = .instr i) :
    (twSpace c.tw ≠ 2#2 ∧ twW c.tw = 0#1 ∧ encode i = callPlain c.tw)
      ∨ (twSpace c.tw ≠ 2#2 ∧ encode i = callData c.tw c.data)
      ∨ (twOf 2#2 0#1 0#1 (twA c.tw) = c.tw ∧ decodeHostCall c = .instr i) := by
  have fields := twOf_fields c.tw
  unfold decode at h
  split_ifs at h with s0 p w s1 p w w s2 p w
  · rw [s0, bit_of_ne_one p, w] at fields
    exact .inr (.inl ⟨by simp [s0], by rw [encode_decodeCpuWrite h, fields]⟩)
  · rw [s0, bit_of_ne_one p, bit_of_ne_one w] at fields
    exact .inl ⟨by simp [s0], bit_of_ne_one w, by rw [encode_decodeCpuRead h, fields]⟩
  · rw [s1, p, bit_of_ne_one w] at fields
    exact .inl ⟨by simp [s1], bit_of_ne_one w, by rw [encode_decodePaletteRead h, fields]⟩
  · rw [s1, bit_of_ne_one p, w] at fields
    injection h with h
    exact .inr (.inl ⟨by simp [s1], by rw [← h, encode_decodeBusWrite, fields]⟩)
  · rw [s1, bit_of_ne_one p, bit_of_ne_one w] at fields
    injection h with h
    exact .inl ⟨by simp [s1], bit_of_ne_one w, by rw [← h, encode_decodeBusRead, fields]⟩
  · rw [s2, bit_of_ne_one p, bit_of_ne_one w] at fields
    exact .inr (.inr ⟨fields, h⟩)

theorem encode_tw_of_decode {c : Call} {i : Instr} (h : decode c = .instr i) : (encode i).tw = c.tw := by
  obtain ⟨-, -, e⟩ | ⟨-, e⟩ | ⟨w, hc⟩ := decode_instr h
  · rw [e]; rfl
  · rw [e]; rfl
  · rw [(encode_decodeHostCall hc).1, w]

/-- A readout is a host call. -/
theorem not_fbread_of_space {c : Call} {i : Instr} (h : decode c = .instr i) (hs : twSpace c.tw ≠ 2#2) (x y : Nat) :
    i ≠ .fbread x y := by
  rintro rfl
  rw [← encode_tw_of_decode h] at hs
  exact hs (twSpace_twOf _ _ _ _)

/-- Settles O3: the branch that decoded the call fixes its space and direction, and the encoder rebuilds that branch's
word. -/
theorem encodeOfDecodeKeepsEveryBit : Obligations.EncodeOfDecodeKeepsEveryBit := by
  intro c i h
  refine ⟨encode_tw_of_decode h, ?_⟩
  obtain ⟨s, w, e⟩ | ⟨s, e⟩ | ⟨tw, hc⟩ := decode_instr h
  · refine ⟨?_, fun x y hi => absurd hi (not_fbread_of_space h s x y)⟩
    rintro (hw | hw | hw)
    · simp [w] at hw
    · exact absurd (by rw [hw]; rfl) s
    · exact absurd (by rw [hw]; rfl) s
  · exact ⟨fun _ => by rw [e]; rfl, fun x y hi => absurd hi (not_fbread_of_space h s x y)⟩
  · obtain ⟨-, data, position⟩ := encode_decodeHostCall hc
    refine ⟨?_, position⟩
    rintro (hw | hw | hw)
    · rw [← tw, twW_twOf] at hw; cases hw
    · exact data (.inl (by rw [hw]; rfl))
    · exact data (.inr (by rw [hw]; rfl))

theorem opcodeRows_disjoint :
    opcodeRows.Pairwise (fun r q => r.pattern &&& q.mask ≠ q.pattern &&& r.mask) := by
  decide

theorem mnemonics_nodup : (opcodeRows.map OpcodeRow.mnemonic).Nodup := by decide

theorem agree_of_meets_two {tw : BitVec 20} {r q : OpcodeRow} (hr : tw &&& r.mask = r.pattern)
    (hq : tw &&& q.mask = q.pattern) : r.pattern &&& q.mask = q.pattern &&& r.mask := by
  rw [← hr, ← hq, BitVec.and_assoc, BitVec.and_assoc, BitVec.and_comm r.mask]

/-- A word meets one row at most. -/
theorem row_unique {tw : BitVec 20} {r q : OpcodeRow} (hr : r ∈ opcodeRows) (hq : q ∈ opcodeRows)
    (mr : tw &&& r.mask = r.pattern) (mq : tw &&& q.mask = q.pattern) : r = q := by
  by_contra hne
  have sym : Std.Symm (fun r q : OpcodeRow => r.pattern &&& q.mask ≠ q.pattern &&& r.mask) := ⟨fun _ _ => Ne.symm⟩
  exact opcodeRows_disjoint.forall hr hq hne (agree_of_meets_two mr mq)

/-- The rows by space, and the address bits that each looks at (R67). -/
theorem row_kinds : ∀ row ∈ opcodeRows, (twSpace row.mask = 3#2 ∧ twP row.mask = 1#1 ∧ twW row.mask = 1#1) ∧
    ((twSpace row.pattern = 0#2 ∧ twP row.pattern = 0#1 ∧
        (twA row.mask = 0xE007#16 ∧ (twA row.pattern).extractLsb' 13 3 = 1#3
          ∨ twA row.mask = 0x8000#16 ∧ twA row.pattern = 0x8000#16
          ∨ twA row.mask = 0xFFFF#16 ∧ (twA row.pattern = 0x4014#16 ∨ twA row.pattern = 0x4016#16
            ∨ twA row.pattern = 0x4017#16 ∧ twW row.pattern = 0#1)))
      ∨ (twSpace row.pattern = 1#2 ∧ twP row.pattern = 0#1)
      ∨ (twSpace row.pattern = 1#2 ∧ twP row.pattern = 1#1 ∧ twW row.pattern = 0#1
        ∧ twA row.mask = 0xFFE0#16 ∧ twA row.pattern = 0#16)
      ∨ (twSpace row.pattern = 2#2 ∧ twP row.pattern = 0#1 ∧ twW row.pattern = 0#1
        ∧ twA row.mask = 0xFFFF#16 ∧ (twA row.pattern).toNat ≤ 4)) := by
  decide

theorem twA_and (x y : BitVec 20) : twA (x &&& y) = twA x &&& twA y := BitVec.extractLsb'_and

/-- An address in a range of the CPU bus has an operation (R55). -/
theorem decodeCpu_isInstr {c : Call} (hs : twSpace c.tw = 0#2) (hp : twP c.tw = 0#1)
    (h : (0x2000 ≤ (twA c.tw).toNat ∧ (twA c.tw).toNat < 0x4000) ∨ 0x8000 ≤ (twA c.tw).toNat
      ∨ (twA c.tw).toNat = 0x4014 ∨ (twA c.tw).toNat = 0x4016 ∨ (twA c.tw).toNat = 0x4017 ∧ twW c.tw = 0#1) :
    ∃ i, decode c = .instr i := by
  by_cases hw : twW c.tw = 1#1
  · rw [decode_cpuWrite hs hp hw, decodeCpuWrite_eq]
    split_ifs
    any_goals exact ⟨_, rfl⟩
    rename_i n1 n2 n3 n4
    simp [hw, n1, n2, n3, n4] at h
  · rw [decode_cpuRead hs hp (bit_of_ne_one hw), decodeCpuRead_eq]
    split_ifs
    any_goals exact ⟨_, rfl⟩
    omega

/-- A field that the mask keeps whole is the pattern's. -/
theorem extract_of_and {w k l : Nat} {a mask pattern : BitVec w} (h : a &&& mask = pattern)
    (hm : mask.extractLsb' k l = BitVec.allOnes l) : a.extractLsb' k l = pattern.extractLsb' k l := by
  rw [← h, BitVec.extractLsb'_and, hm, BitVec.and_allOnes]

/-- A word that meets a row decodes to an operation. -/
theorem decode_of_meets {row : OpcodeRow} (hr : row ∈ opcodeRows) {c : Call} (h : c.tw &&& row.mask = row.pattern) :
    ∃ i, decode c = .instr i := by
  obtain ⟨⟨mS, mP, mW⟩, kind⟩ := row_kinds row hr
  have hS : twSpace c.tw = twSpace row.pattern := extract_of_and h mS
  have hP : twP c.tw = twP row.pattern := extract_of_and h mP
  have hW : twW c.tw = twW row.pattern := extract_of_and h mW
  have whole (mask : twA row.mask = 0xFFFF#16) : twA c.tw = twA row.pattern := extract_of_and h mask
  have hA : twA c.tw &&& twA row.mask = twA row.pattern := by rw [← h, twA_and]
  rw [← hS, ← hP, ← hW] at kind
  obtain ⟨s, p, addr⟩ | ⟨s, p⟩ | ⟨s, p, w, mask, pat⟩ | ⟨s, p, w, mask, pat⟩ := kind
  · apply decodeCpu_isInstr s p
    obtain ⟨mask, pat⟩ | ⟨mask, pat⟩ | ⟨mask, pat⟩ := addr
    · exact .inl ((portRange_iff _).mp ((extract_of_and hA (by rw [mask]; rfl)).trans pat))
    · exact .inr (.inl ((upperHalf_iff _).mp ((extract_of_and hA (by rw [mask]; rfl)).trans (by rw [pat]; rfl))))
    · rw [← whole mask] at pat
      obtain e | e | ⟨e, w⟩ := pat <;> rw [e]
      · exact .inr (.inr (.inl rfl))
      · exact .inr (.inr (.inr (.inl rfl)))
      · exact .inr (.inr (.inr (.inr ⟨rfl, w⟩)))
  · by_cases w : twW c.tw = 1#1
    · exact ⟨_, decode_busWrite s p w⟩
    · exact ⟨_, decode_busRead s p (bit_of_ne_one w)⟩
  · have index : (twA c.tw).extractLsb' 5 11 = 0#11 :=
      (extract_of_and hA (by rw [mask]; rfl)).trans (by rw [pat]; rfl)
    exact ⟨_, by rw [decode_paletteRead s p w, decodePaletteRead, if_pos index]⟩
  · rw [← whole mask] at pat
    rw [decode_hostCall s p w]
    unfold decodeHostCall
    dsimp only
    split_ifs
    any_goals exact ⟨_, rfl⟩
    bv_omega

/-- Every operation has its row, whose match its encoding meets (R67). -/
theorem exists_row (i : Instr) : Laws.TableRow.Statement i :=
  open Laws.TableRow in
  match i with
  | .ppuctrlW m b => ppuctrlW m b
  | .ppuctrlR m => ppuctrlR m
  | .ppumaskW m b => ppumaskW m b
  | .ppumaskR m => ppumaskR m
  | .ppustatusR m => ppustatusR m
  | .ppustatusW m b => ppustatusW m b
  | .oamaddrW m b => oamaddrW m b
  | .oamaddrR m => oamaddrR m
  | .oamdataR m => oamdataR m
  | .oamdataW m b => oamdataW m b
  | .ppuscrollW m b => ppuscrollW m b
  | .ppuscrollR m => ppuscrollR m
  | .ppuaddrW m b => ppuaddrW m b
  | .ppuaddrR m => ppuaddrR m
  | .ppudataR m => ppudataR m
  | .ppudataW m b => ppudataW m b
  | .oamdmaW n => oamdmaW n
  | .oamdmaR => oamdmaR
  | .ctrlStrobeW b => ctrlStrobeW b
  | .ctrl1R => ctrl1R
  | .ctrl2R => ctrl2R
  | .prgR a => prgR a
  | .prgW a b => prgW a b
  | .pbPatR a => pbPatR a
  | .pbNtR a => pbNtR a
  | .pbNtR3000 a => pbNtR3000 a
  | .pbNtR3800 a => pbNtR3800 a
  | .pbNtR3C00 a => pbNtR3C00 a
  | .pbNtR3E00 a => pbNtR3E00 a
  | .pbPalR a => pbPalR a
  | .pbOodR a => pbOodR a
  | .pbOodR8000 a => pbOodR8000 a
  | .pbPatW a b => pbPatW a b
  | .pbNtW a b => pbNtW a b
  | .pbNtW3000 a b => pbNtW3000 a b
  | .pbNtW3800 a b => pbNtW3800 a b
  | .pbNtW3C00 a b => pbNtW3C00 a b
  | .pbNtW3E00 a b => pbNtW3E00 a b
  | .pbPalW a b => pbPalW a b
  | .pbOodW a b => pbOodW a b
  | .pbOodW8000 a b => pbOodW8000 a b
  | .pbRdpal i => pbRdpal i
  | .cycle => cycle
  | .reset => reset
  | .buttons1 b => buttons1 b
  | .buttons2 b => buttons2 b
  | .fbread x y => fbread x y

/-- A call that decodes to an operation meets the row of the operation's mnemonic. -/
theorem meets_of_decode {c : Call} {i : Instr} (h : decode c = .instr i) :
    ∃ row ∈ opcodeRows, row.mnemonic = i.mnemonic ∧ c.tw &&& row.mask = row.pattern := by
  rw [← encode_tw_of_decode h]
  exact exists_row i

/-- Settles O4: the rows are disjoint by pairs; a word that meets one decodes, and what decodes meets its own
mnemonic's row. -/
theorem tableRowsDecideDecoding : Obligations.TableRowsDecideDecoding := by
  refine ⟨opcodeRows_disjoint.imp fun hne tw ⟨hr, hq⟩ => hne (agree_of_meets_two hr hq),
    fun row hr c => ⟨fun h => ?_, ?_⟩, fun i => ?_⟩
  · obtain ⟨i, hi⟩ := decode_of_meets hr h
    obtain ⟨q, hq, name, mq⟩ := meets_of_decode hi
    exact ⟨i, hi, by rw [← name, row_unique hr hq h mq]⟩
  · rintro ⟨i, hi, name⟩
    obtain ⟨q, hq, nameq, mq⟩ := meets_of_decode hi
    obtain rfl : q = row := List.inj_on_of_nodup_map mnemonics_nodup hq hr (nameq.trans name)
    exact mq
  · obtain ⟨row, hr, name, -⟩ := exists_row i
    exact ⟨row, hr, name⟩

end Sys2Proof

/-! PROOF. The statements about decoding, and a step on a call that decodes, is refused or faults (R67, R68, R143). -/

namespace Sys2Proof

/-- Settles O1: each word is closed, so the decoder computes its operation. -/
theorem writtenWordsDecode : Obligations.WrittenWordsDecode := by
  unfold Obligations.WrittenWordsDecode
  decide

/-- Settles O2: by cases on the operation, as `decode_encode`. -/
theorem decodeOfEncodeIsIdentity : Obligations.DecodeOfEncodeIsIdentity := decode_encode

end Sys2Proof

namespace Sys2Proof.Machine

section Reserved
variable {s : State} {c : Call}

/-- A refusal leaves the state of R143. -/
theorem refuse_eq_refusedState (s : State) (r : RefuseReason) : refuse s r = .next (refusedState s r) := by
  rw [refuse_eq]
  cases h : s.out.refused <;> simp [refusedState, h]

theorem step_withCall_instr {i : Instr} (hd : decode c = .instr i) : step (withCall s c) = exec i s := by
  simp only [step, fetch, withCall, hd]

theorem step_withCall_refused (ha : s.Alive) {r : RefuseReason} (hd : decode c = .refused r) :
    step (withCall s c) = .next (refusedState s r) := by
  simp only [step, fetch, withCall, hd, refusedCall]
  rw [live_of_alive ha]
  exact refuse_eq_refusedState s r

theorem step_withCall_paletteOutOfDomain (ha : s.Alive) (hd : decode c = .paletteOutOfDomain) :
    step (withCall s c) = .fault .busOutOfDomain := by
  simp only [step, fetch, withCall, hd, paletteOutOfDomain]
  exact live_of_alive ha

theorem upperHalf_addr_ge (a : BitVec 15) : 0x4000#16 ≤ 1#1 ++ a := by
  rw [BitVec.le_def, toNat_append_eq]
  simp only [BitVec.toNat_ofNat]
  omega

theorem secondQuarter_addr_ge (a : BitVec 14) : 0x4000#16 ≤ 1#2 ++ a := by
  rw [BitVec.le_def, toNat_append_eq]
  simp only [BitVec.toNat_ofNat]
  omega

/-- Settles O36: all four forms give an address of `0x4000` or above. -/
theorem busAccessOutsideTheDomainFaults : Obligations.BusAccessOutsideTheDomainFaults := fun _ ha =>
  ⟨fun a => busRead_outOfDomain ha (secondQuarter_addr_ge a), fun a => busRead_outOfDomain ha (upperHalf_addr_ge a),
    fun a _ => busWrite_outOfDomain ha (secondQuarter_addr_ge a),
    fun a _ => busWrite_outOfDomain ha (upperHalf_addr_ge a)⟩

end Reserved

theorem exec_decodeBusRead {s : State} (ha : s.Alive) {a : Addr} (h : 0x4000 ≤ a.toNat) :
    exec (decodeBusRead a) s = .fault .busOutOfDomain := by
  have := a.isLt
  rw [decodeBusRead]
  split_ifs with h15 h14
  · exact busRead_outOfDomain ha (upperHalf_addr_ge _)
  · exact busRead_outOfDomain ha (secondQuarter_addr_ge _)
  all_goals
    simp only [extract_bit_one_iff_mod] at h15 h14
    omega

theorem exec_decodeBusWrite {s : State} (ha : s.Alive) {a : Addr} {b : Byte} (h : 0x4000 ≤ a.toNat) :
    exec (decodeBusWrite a b) s = .fault .busOutOfDomain := by
  have := a.isLt
  rw [decodeBusWrite]
  split_ifs with h15 h14
  · exact busWrite_outOfDomain ha (upperHalf_addr_ge _)
  · exact busWrite_outOfDomain ha (secondQuarter_addr_ge _)
  all_goals
    simp only [extract_bit_one_iff_mod] at h15 h14
    omega

/-- Settles O5: each kind of reserved word takes one branch of the decoder, to a refusal, a palette fault or an
address that the PictureBus faults on. -/
theorem reservedWordsHaveTheirOutcomes : Obligations.ReservedWordsHaveTheirOutcomes := by
  intro s c ha
  refine ⟨fun hs => ?_, fun ⟨hs, hp⟩ => ?_, fun ⟨hs, hp, hw⟩ => ?_, fun ⟨hs, hp, hw⟩ => ?_, fun ⟨hs, hp, hw, hi⟩ => ?_,
    fun ⟨hs, hp, hw, hn⟩ => ?_, fun ⟨hs, hp, addr⟩ => ?_, fun ⟨hs, hp, addr⟩ => ?_⟩
  · exact step_withCall_refused ha (by simp [decode, hs])
  · exact step_withCall_refused ha (by obtain hs | hs := hs <;> simp [decode, hs, hp])
  · exact step_withCall_refused ha (by simp [decode, hs, hp, hw])
  · exact step_withCall_refused ha (by simp [decode, hs, hp, hw])
  · refine step_withCall_paletteOutOfDomain ha ?_
    rw [decode_paletteRead hs hp hw, decodePaletteRead, if_neg (by rw [paletteRange_iff]; omega)]
  · refine step_withCall_refused ha ?_
    have other (n : Addr) (h : n.toNat ≤ 4) : twA c.tw ≠ n := by rintro rfl; omega
    simp [decode_hostCall hs hp hw, decodeHostCall, other]
  · refine step_withCall_refused ha ?_
    by_cases hw : twW c.tw = 1#1
    · rw [decode_cpuWrite hs hp hw, decodeCpuWrite_eq, if_neg (by omega), if_neg (by omega),
        if_neg (by omega), if_neg (by omega)]
    · have h17 : (twA c.tw).toNat ≠ 0x4017 := fun h => by
        obtain low | ⟨-, -, -, -, written⟩ := addr
        · omega
        · exact hw (written h)
      rw [decode_cpuRead hs hp (bit_of_ne_one hw), decodeCpuRead_eq, if_neg (by omega), if_neg (by omega),
        if_neg (by omega), if_neg h17, if_neg (by omega)]
  · by_cases hw : twW c.tw = 1#1
    · rw [step_withCall_instr (decode_busWrite hs hp hw), exec_decodeBusWrite ha addr]
    · rw [step_withCall_instr (decode_busRead hs hp (bit_of_ne_one hw)), exec_decodeBusRead ha addr]

/-- Settles O6: `step` by the two cases of `fetch`. -/
theorem stepRunsTheDecodedCall : Obligations.StepRunsTheDecodedCall := by
  refine ⟨fun s c rest i hs hd => ?_, fun s ha hs => ?_⟩
  · simp only [step, fetch_cons hs, hd]
  · simp only [step, fetch_nil hs, live_of_alive ha]

end Sys2Proof.Machine

/-! PROOF. What every operation does when it answers a next state (R13 to R36). -/

namespace Sys2Proof.Machine

/-- Every operation runs under the check of R36. -/
theorem exec_eq_live (i : Instr) (s : State) : ∃ k, exec i s = live s k := by
  cases i <;> exact ⟨_, rfl⟩

theorem exec_of_faulted {s : State} {f : Fault} (h : s.out.faulted = some f) (i : Instr) : exec i s = .fault f := by
  obtain ⟨k, hk⟩ := exec_eq_live i s
  rw [hk, live_of_faulted h]

/-- The operations that write no memory, no flag of the status byte and no position: at most port registers, control and
mask fields, controllers and the count of draws. -/
def isQuiet : Instr → Bool
  | .ppuctrlW _ _ | .ppuctrlR _ | .ppumaskW _ _ | .ppumaskR _ | .ppustatusW _ _ | .oamaddrW _ _ | .oamaddrR _ => true
  | .oamdataR _ | .ppuscrollW _ _ | .ppuscrollR _ | .ppuaddrW _ _ | .ppuaddrR _ | .ppudataR _ | .oamdmaR => true
  | .ctrlStrobeW _ | .ctrl1R | .ctrl2R | .buttons1 _ | .buttons2 _ | .prgR _ => true
  | .pbPatR _ | .pbNtR _ | .pbNtR3000 _ | .pbNtR3800 _ | .pbNtR3C00 _ | .pbNtR3E00 _ | .pbPalR _ | .pbRdpal _ => true
  | .pbOodR _ | .pbOodR8000 _ => true
  | .fbread _ _ => true
  | _ => false

/-- What only `cycle()`, a reset and a status read change of the PPU (R15 to R18, R25, R26, R29, R31). -/
structure PpuKept (p q : Ppu) : Prop where
  position : q.position = p.position
  vblank : q.vblank = p.vblank
  sprZeroHit : q.sprZeroHit = p.sprZeroHit
  lineSprites : q.lineSprites = p.lineSprites
  fb : q.fb = p.fb

/-- What an operation that answered a next state did. -/
inductive Effect (s : State) : Instr → State → Prop
  | quiet {i p c d n r} (hi : isQuiet i = true) (kept : PpuKept s.ppu p) (oam : p.oam = s.ppu.oam)
      (hr : r ≠ .interrupt) :
      Effect s i { s with ppu := p, ctrl1 := c, ctrl2 := d, draws := n, result := r }
  | statusRead (m) :
      Effect s (.ppustatusR m) { s with ppu := statusReadEffect s.ppu, result := .byte (statusByte s.ppu) }
  | oamWrite (m b) :
      Effect s (.oamdataW m b) { s with
        ppu := { s.ppu with
          oam := Memory.write s.ppu.oam s.ppu.oamAddr.toNat b
          oamAddr := s.ppu.oamAddr + 1#8 }
        result := .nothing }
  | dma (page src n) :
      Effect s (.oamdmaW page) { s with
        ppu := { s.ppu with oam := dmaOam s.ppu.oamAddr src }, draws := n, result := .nothing }
  | dataWrite {m b u} (h : pbWrite s (vBusAddr s.ppu.v) b = .ok u) :
      Effect s (.ppudataW m b) { u with ppu := incV s.ppu, result := .nothing }
  | prgWrite {a b u} (h : writePRG s (prgWindowAddr a) b = .ok u) : Effect s (.prgW a b) { u with result := .nothing }
  | patternWrite {a b u} (h : writeCHR s (0#3 ++ a) b = .ok u) : Effect s (.pbPatW a b) { u with result := .nothing }
  | nametableWrite {i a b} (hi : isBusWrite i = true) (hp : ∀ a b, i ≠ .pbPatW a b) :
      Effect s i { s with
        pb := { s.pb with ntRam := Memory.write s.pb.ntRam (ntOffset s.cart.mirroring a) b }, result := .nothing }
  | paletteWrite {i a b} (hi : isBusWrite i = true) (hp : ∀ a b, i ≠ .pbPatW a b) :
      Effect s i { s with
        pb := { s.pb with palette := Memory.write s.pb.palette (paletteEntry s a) b }, result := .nothing }
  | dot {p} (h : dotStep s = .ok p) (silent : emitsInterrupt s.ppu = false) :
      Effect s .cycle { s with ppu := p, result := .nothing }
  | interruptDot {p} (h : dotStep s = .ok p) (emits : emitsInterrupt s.ppu = true) :
      Effect s .cycle { s with ppu := p, out := { s.out with nmiCount := s.out.nmiCount + 1 }, result := .interrupt }
  | reset : Effect s .reset { s with ppu := resetPpu s.par s.ppu, result := .nothing }
  | refusedReadout (x y) :
      Effect s (.fbread x y) { s with
        out := { s.out with refused := s.out.refused.or (some .noSuchPixel) }, result := .refused .noSuchPixel }

section Effects
variable {s t : State}

theorem PpuKept.refl (p : Ppu) : PpuKept p p := ⟨rfl, rfl, rfl, rfl, rfl⟩

/-- An operation that only finishes, with at most port registers, controllers and the count of draws changed. -/
theorem quiet_finish {i : Instr} (hi : isQuiet i = true) {p : Ppu} {c d : Controller} {n : Nat} {r : OpResult}
    (h : live s (finish { s with ppu := p, ctrl1 := c, ctrl2 := d, draws := n } r) = .next t)
    (kept : PpuKept s.ppu p) (oam : p.oam = s.ppu.oam) (hr : r ≠ .interrupt) : Effect s i t := by
  obtain ⟨-, h⟩ := live_next h
  obtain rfl := finish_next.mp h
  exact .quiet hi kept oam hr

theorem quiet_busRead {i : Instr} {a : Addr} (hi : isQuiet i = true) (h : busRead s a = .next t) : Effect s i t := by
  obtain ⟨-, d, -, rfl⟩ := busRead_next h
  exact .quiet hi (PpuKept.refl _) rfl nofun

/-- The address of a pattern access (R131). -/
theorem patternAddress_toNat (a : BitVec 13) : (0#3 ++ a : Addr).toNat = a.toNat := by
  rw [toNat_append_eq]
  simp

theorem patternAddress_lt (a : BitVec 13) : (0#3 ++ a : Addr) < 0x2000#16 := by
  rw [BitVec.lt_def, patternAddress_toNat]
  exact a.isLt

/-- A PictureBus write that is not a pattern write stores in nametable or palette RAM (R131, R133). -/
theorem effect_busWrite {i : Instr} {a : Addr} {b : Byte} (hi : isBusWrite i = true) (hp : ∀ a b, i ≠ .pbPatW a b)
    (ha : 0x2000#16 ≤ a) (h : busWrite s a b = .next t) : Effect s i t := by
  obtain ⟨-, u, hu, rfl⟩ := busWrite_next h
  obtain hc | ⟨-, -, rfl⟩ | ⟨-, -, rfl⟩ := pbWrite_ok hu
  · have hd : 0x1FFF#16 < a := by bv_omega
    simp [writeCHR, hd] at hc
  · exact .nametableWrite hi hp
  · exact .paletteWrite hi hp

end Effects

/-- Every operation that answers a next state did what its effect says. -/
theorem exec_effect {i : Instr} {s t : State} (h : exec i s = .next t) : Effect s i t := by
  cases i with
  | ppuctrlW _ _ | ppumaskW _ _ | ppustatusW _ _ | oamaddrW _ _ =>
    exact quiet_finish rfl h ⟨rfl, rfl, rfl, rfl, rfl⟩ rfl nofun
  | ppuscrollW _ _ | ppuaddrW _ _ =>
    refine quiet_finish rfl h ?_ ?_ nofun <;> split
    exacts [⟨rfl, rfl, rfl, rfl, rfl⟩, ⟨rfl, rfl, rfl, rfl, rfl⟩, rfl, rfl]
  | ppuctrlR _ | ppumaskR _ | oamaddrR _ | oamdataR _ | ppuscrollR _ | ppuaddrR _ | oamdmaR | ctrlStrobeW _ | ctrl1R
  | ctrl2R | buttons1 _ | buttons2 _ => exact quiet_finish rfl h (PpuKept.refl _) rfl nofun
  | pbPatR a | pbNtR a | pbNtR3000 a | pbNtR3800 a | pbNtR3C00 a | pbNtR3E00 a | pbPalR a | pbOodR a | pbOodR8000 a =>
    exact quiet_busRead rfl h
  | pbRdpal idx =>
    obtain ⟨-, d, rfl⟩ := execPbRdpal_next h
    exact .quiet rfl (PpuKept.refl _) rfl nofun
  | prgR a =>
    obtain ⟨-, d, -, rfl⟩ := execPrgR_next h
    exact .quiet rfl (PpuKept.refl _) rfl nofun
  | ppudataR m =>
    obtain ⟨-, d, -, rfl⟩ := execPpudataR_next (m := m) h
    obtain ⟨rb, hrb⟩ := dataReadEffect_fields s.par s.ppu (vBusAddr s.ppu.v) d
    rw [hrb]
    exact .quiet rfl ⟨rfl, rfl, rfl, rfl, rfl⟩ rfl nofun
  | ppustatusR m =>
    obtain ⟨-, rfl⟩ := execPpustatusR_next (m := m) h
    exact .statusRead m
  | oamdataW m b =>
    obtain ⟨-, rfl⟩ := ppuWrite_next h
    exact .oamWrite m b
  | oamdmaW n =>
    obtain ⟨-, ⟨-, src, -, rfl⟩ | ⟨-, rfl⟩⟩ := execOamdmaW_next h
    · exact .dma n src s.draws
    · exact .dma n _ _
  | ppudataW m b =>
    obtain ⟨-, u, hu, rfl⟩ := execPpudataW_next (m := m) h
    exact .dataWrite hu
  | prgW a b =>
    obtain ⟨-, u, hu, rfl⟩ := execPrgW_next h
    exact .prgWrite hu
  | pbPatW a b =>
    obtain ⟨-, u, hu, rfl⟩ := busWrite_next h
    exact .patternWrite (pbWrite_pattern (patternAddress_lt a) ▸ hu)
  | pbNtW a b | pbNtW3000 a b | pbNtW3800 a b | pbNtW3C00 a b | pbNtW3E00 a b | pbPalW a b | pbOodW a b
  | pbOodW8000 a b =>
    refine effect_busWrite rfl nofun ?_ h
    rw [BitVec.le_def, toNat_append_eq]
    simp only [BitVec.toNat_ofNat]
    omega
  | cycle =>
    obtain ⟨-, p, hp, ⟨he, rfl⟩ | ⟨he, rfl⟩⟩ := execCycle_next h
    · exact .interruptDot hp he
    · exact .dot hp he
  | reset =>
    obtain ⟨-, rfl⟩ := execReset_next h
    exact .reset
  | fbread x y =>
    obtain ⟨-, ⟨-, -, rfl⟩ | ⟨-, rfl⟩⟩ := execFbread_next h
    · exact .quiet rfl (PpuKept.refl _) rfl nofun
    · exact .refusedReadout x y

end Sys2Proof.Machine

/-! PROOF. A dot is its action and then the move to the next dot (R87 to R108). -/

namespace Sys2Proof.Machine

section DotStep
variable {s t : State} {par : Params} {p q : Ppu}

/-- The action of the dot at the PPU's position, before the move (R90 to R96, R103). -/
def dotAction (s : State) : Except Fault Ppu :=
  match s.ppu.phase with
  | .preRender => .ok (preRenderAction s.par s.ppu)
  | .render => renderAction s
  | .postRender => .ok s.ppu
  | .verticalBlank => .ok (if vblankStarts s.ppu then setVblank s.ppu else s.ppu)

/-- Whether the line ends at this dot (R93, R97, R102, R104). -/
def lineEndsAt (par : Params) (p : Ppu) : Bool :=
  match p.phase with
  | .preRender => preRenderEnds par p
  | _ => decide (p.dot = 340#9)

/-- The end of a line (R93, R97, R102, R104). -/
def nextLine (p : Ppu) : Ppu :=
  match p.phase with
  | .preRender => { p with phase := .render, scanline := 0#9 }
  | .render => renderLineEnd p
  | .postRender => { p with scanline := p.scanline + 1#9, phase := .verticalBlank }
  | .verticalBlank => vblankLineEnd p

/-- The move to the next dot (R108). -/
def moveOn (par : Params) (p : Ppu) : Ppu :=
  if lineEndsAt par p then advance par true (nextLine p) else advance par false p

/-- What a dot's action may do: it keeps the position, the sprite list and the fields of `CycleFrame`. -/
structure ActionFrame (p q : Ppu) : Prop extends CycleFrame p q where
  position : q.position = p.position
  lineSprites : q.lineSprites = p.lineSprites

theorem dotAction_frame (h : dotAction s = .ok p) : ActionFrame s.ppu p := by
  unfold dotAction at h
  split at h
  · injection h with h
    subst h
    refine ⟨preRenderAction_frame _ _, ?_, ?_⟩ <;> (rw [preRenderAction_eq]; split <;> rfl)
  · obtain ⟨phase, scanline, dot, evenFrame, -, sprites⟩ := renderAction_position h
    exact ⟨renderAction_frame h, Ppu.position_eq_iff.mpr ⟨phase, scanline, dot, evenFrame⟩, sprites⟩
  · injection h with h
    subst h
    exact ⟨CycleFrame.refl _, rfl, rfl⟩
  · injection h with h
    subst h
    split
    · exact ⟨by constructor <;> rfl, rfl, rfl⟩
    · exact ⟨CycleFrame.refl _, rfl, rfl⟩

/-- A dot that has a next state is its action and then the move. -/
theorem dotStep_ok (h : dotStep s = .ok q) : ∃ p, dotAction s = .ok p ∧ q = moveOn s.par p := by
  have phase {p : Ppu} (hp : dotAction s = .ok p) : p.phase = s.ppu.phase :=
    (Ppu.position_eq_iff.mp (dotAction_frame hp).position).1
  unfold dotStep at h
  split at h
  next hp =>
    injection h with h
    have ha : dotAction s = .ok (preRenderAction s.par s.ppu) := by simp only [dotAction, hp]
    refine ⟨_, ha, ?_⟩
    rw [moveOn, lineEndsAt, nextLine, phase ha, hp, ← h, preRenderDot]
  next hp =>
    unfold renderDot at h
    split at h
    · cases h
    · next p hr =>
      injection h with h
      have ha : dotAction s = .ok p := by simp only [dotAction, hp, hr]
      refine ⟨p, ha, ?_⟩
      simp only [moveOn, lineEndsAt, nextLine, phase ha, hp, ← h, decide_eq_true_eq]
  next hp =>
    injection h with h
    refine ⟨s.ppu, by simp only [dotAction, hp], ?_⟩
    simp only [moveOn, lineEndsAt, nextLine, hp, ← h, postRenderDot, decide_eq_true_eq]
  next hp =>
    injection h with h
    have ha : dotAction s = .ok (if vblankStarts s.ppu then setVblank s.ppu else s.ppu) := by simp only [dotAction, hp]
    refine ⟨_, ha, ?_⟩
    rw [moveOn, lineEndsAt, nextLine, phase ha, hp, ← h, vblankDot]
    simp only [decide_eq_true_eq]

/-- What the move leaves of the PPU. -/
structure MoveFrame (p q : Ppu) : Prop extends CycleFrame p q where
  v : q.v = p.v
  vblank : q.vblank = p.vblank
  sprZeroHit : q.sprZeroHit = p.sprZeroHit
  fb : q.fb = p.fb

theorem moveOn_frame (par : Params) (p : Ppu) : MoveFrame p (moveOn par p) := by
  unfold moveOn nextLine vblankLineEnd
  repeat' split
  all_goals exact ⟨by constructor <;> rfl, rfl, rfl, rfl, rfl⟩

/-- The status flags after a dot's action. -/
theorem dotAction_vblank (h : dotAction s = .ok p) :
    p.vblank = (if s.ppu.phase = .preRender ∧ s.ppu.dot = 1#9 then false
      else if s.ppu.phase = .verticalBlank ∧ s.ppu.scanline = 241#9 ∧ s.ppu.dot = 1#9 then true else s.ppu.vblank) := by
  unfold dotAction at h
  split at h
  next hp =>
    injection h with h
    rw [← h, preRenderAction_eq, hp]
    by_cases h1 : s.ppu.dot = 1#9 <;> simp [h1]
  next hp =>
    obtain ⟨-, -, -, -, vblank, -⟩ := renderAction_position h
    simp [hp, vblank]
  next hp =>
    injection h with h
    simp [hp, ← h]
  next hp =>
    injection h with h
    rw [← h]
    by_cases start : s.ppu.scanline = 241#9 ∧ s.ppu.dot = 1#9 <;> simp [hp, vblankStarts, start, setVblank]

/-- Whether the PPU is at a visible dot (R94). -/
def Ppu.AtVisibleDot (p : Ppu) : Prop := p.phase = .render ∧ 1#9 ≤ p.dot ∧ p.dot ≤ 256#9

/-- What a dot's action does to the sprite-zero hit and the frame buffer: a pixel at a visible dot, the clear of
PreRender dot 1, or nothing. -/
theorem dotAction_pixel (h : dotAction s = .ok p) :
    (s.ppu.AtVisibleDot ∧ ∃ c hit, p.sprZeroHit = (s.ppu.sprZeroHit || hit)
        ∧ p.fb = fbWrite s.ppu.fb (s.ppu.dot.toNat - 1) s.ppu.scanline.toNat c)
      ∨ (p.fb = s.ppu.fb
        ∧ p.sprZeroHit = if s.ppu.phase = .preRender ∧ s.ppu.dot = 1#9 then false else s.ppu.sprZeroHit) := by
  unfold dotAction at h
  split at h
  next hp =>
    injection h with h
    rw [← h, preRenderAction_eq]
    by_cases h1 : s.ppu.dot = 1#9 <;> simp [h1, hp]
  next hp =>
    obtain ⟨lo, hi, c, hit, rfl⟩ | ⟨v, rfl⟩ := renderAction_ok h
    · left
      refine ⟨⟨hp, lo, hi⟩, c, hit, ?_⟩
      unfold coarseStep
      split <;> exact ⟨rfl, rfl⟩
    · simp [hp]
  next hp =>
    injection h with h
    simp [hp, ← h]
  next hp =>
    injection h with h
    rw [← h]
    split <;> simp [hp, setVblank]

end DotStep

end Sys2Proof.Machine

/-! PROOF. The statements about every operation and every step (R13 to R36), each read off the effects. -/

namespace Sys2Proof.Machine

section Operations
variable {i : Instr} {s t : State}

/-- What an operation did to the PPU: the fields of `PpuKept` change at a status read, a `cycle()` and a reset alone. -/
theorem exec_ppu (h : exec i s = .next t) :
    (PpuKept s.ppu t.ppu ∧ i ≠ .cycle ∧ i ≠ .reset ∧ ∀ m, i ≠ .ppustatusR m)
      ∨ ((∃ m, i = .ppustatusR m) ∧ t.ppu = statusReadEffect s.ppu ∧ t.result = .byte (statusByte s.ppu))
      ∨ (i = .cycle ∧ dotStep s = .ok t.ppu)
      ∨ (i = .reset ∧ t.ppu = resetPpu s.par s.ppu) := by
  have kept {p : Ppu} (hp : p = s.ppu) : PpuKept s.ppu p := hp ▸ PpuKept.refl _
  cases exec_effect h with
  | quiet hi k _ _ =>
    refine .inl ⟨k, ?_, ?_, fun m => ?_⟩ <;> (rintro rfl; cases hi)
  | statusRead m => exact .inr (.inl ⟨⟨m, rfl⟩, rfl, rfl⟩)
  | oamWrite _ _ | dma _ _ _ | dataWrite _ => exact .inl ⟨⟨rfl, rfl, rfl, rfl, rfl⟩, nofun, nofun, nofun⟩
  | prgWrite hu => exact .inl ⟨kept (writePRG_frame hu).ppu, nofun, nofun, nofun⟩
  | patternWrite hu => exact .inl ⟨kept (writeCHR_frame hu).ppu, nofun, nofun, nofun⟩
  | nametableWrite hi _ | paletteWrite hi _ =>
    refine .inl ⟨PpuKept.refl _, ?_, ?_, fun m => ?_⟩ <;> (rintro rfl; cases hi)
  | dot hd _ | interruptDot hd _ => exact .inr (.inr (.inl ⟨rfl, hd⟩))
  | reset => exact .inr (.inr (.inr ⟨rfl, rfl⟩))
  | refusedReadout _ _ => exact .inl ⟨PpuKept.refl _, nofun, nofun, nofun⟩

theorem dotStep_vblank {q : Ppu} (h : dotStep s = .ok q) :
    q.vblank = (if s.ppu.phase = .preRender ∧ s.ppu.dot = 1#9 then false
      else if s.ppu.phase = .verticalBlank ∧ s.ppu.scanline = 241#9 ∧ s.ppu.dot = 1#9 then true else s.ppu.vblank) := by
  obtain ⟨p, hp, rfl⟩ := dotStep_ok h
  rw [(moveOn_frame s.par p).vblank, dotAction_vblank hp]

theorem statusByte_flags (p : Ppu) : (statusByte p).getLsbD 7 = p.vblank ∧ (statusByte p).getLsbD 6 = p.sprZeroHit := by
  simp only [statusByte, BitVec.getLsbD_append]
  simp

/-- Settles O14: only the operations of `exec_ppu` touch the flag, and `dotStep_vblank` gives it after a dot. -/
theorem vblankHasOnlyItsWriters : Obligations.VblankHasOnlyItsWriters := by
  intro i s t h
  obtain ⟨kept, hc, hr, hm⟩ | ⟨⟨m, rfl⟩, hp, hres⟩ | ⟨rfl, hd⟩ | ⟨rfl, hp⟩ := exec_ppu h
  · rw [kept.vblank]
    exact ⟨by simp_all, by simp_all, fun e => absurd e hc, fun e => absurd e hc, fun e => absurd e hr,
      fun m e => absurd e (hm m)⟩
  · rw [hp]
    exact ⟨nofun, fun _ _ => .inr (.inl ⟨m, rfl⟩), nofun, nofun, nofun,
      fun _ _ => ⟨rfl, _, hres, (statusByte_flags s.ppu).1⟩⟩
  · rw [dotStep_vblank hd]
    refine ⟨?_, ?_, ?_, ?_, nofun, nofun⟩
    · split_ifs with clear start <;> simp_all
    · split_ifs with clear start <;> simp_all
    · intro _ a b c; simp_all
    · intro _ a b; simp_all
  · rw [hp]
    exact ⟨nofun, fun _ _ => .inr (.inr rfl), nofun, nofun, fun _ => rfl, nofun⟩

/-- The sprite-zero hit and the frame buffer after a dot. -/
theorem dotStep_pixel {q : Ppu} (h : dotStep s = .ok q) :
    (s.ppu.AtVisibleDot ∧ ∃ c hit, q.sprZeroHit = (s.ppu.sprZeroHit || hit)
        ∧ q.fb = fbWrite s.ppu.fb (s.ppu.dot.toNat - 1) s.ppu.scanline.toNat c)
      ∨ (q.fb = s.ppu.fb
        ∧ q.sprZeroHit = if s.ppu.phase = .preRender ∧ s.ppu.dot = 1#9 then false else s.ppu.sprZeroHit) := by
  obtain ⟨p, hp, rfl⟩ := dotStep_ok h
  rw [(moveOn_frame s.par p).sprZeroHit, (moveOn_frame s.par p).fb]
  exact dotAction_pixel hp

/-- Settles O15: only the operations of `exec_ppu` touch the flag, and `dotStep_pixel` gives it after a dot. -/
theorem spriteZeroHitHasOnlyItsWriters : Obligations.SpriteZeroHitHasOnlyItsWriters := by
  intro i s t h
  obtain ⟨kept, hc, hr, hm⟩ | ⟨⟨m, rfl⟩, hp, hres⟩ | ⟨rfl, hd⟩ | ⟨rfl, hp⟩ := exec_ppu h
  · rw [kept.sprZeroHit]
    exact ⟨by simp_all, by simp_all, fun e => absurd e hc, fun e => absurd e hr, fun m e => absurd e (hm m)⟩
  · rw [hp]
    refine ⟨?_, ?_, nofun, nofun, fun _ _ => ⟨rfl, _, hres, (statusByte_flags s.ppu).2⟩⟩
    · intro h0 h1; simp_all [statusReadEffect]
    · intro h0 h1; simp_all [statusReadEffect]
  · obtain ⟨visible, c, hit, e, -⟩ | ⟨-, e⟩ := dotStep_pixel hd
    · rw [e]
      refine ⟨fun _ _ => ⟨rfl, visible⟩, fun h0 h1 => ?_, fun _ hp => ?_, nofun, nofun⟩
      · simp [h0] at h1
      · simp [visible.1] at hp
    · rw [e]
      refine ⟨?_, ?_, ?_, nofun, nofun⟩
      · split_ifs <;> simp_all
      · split_ifs <;> simp_all
      · intro _ a b; simp_all
  · rw [hp]
    exact ⟨nofun, fun _ _ => .inr rfl, nofun, fun _ => rfl, nofun⟩

/-- Settles O16: only a dot writes the frame buffer, and `dotStep_pixel` names the one entry. -/
theorem frameBufferIsWrittenOnlyByThePixel : Obligations.FrameBufferIsWrittenOnlyByThePixel := by
  intro i s t h
  obtain ⟨kept, -⟩ | ⟨-, hp, -⟩ | ⟨rfl, hd⟩ | ⟨-, hp⟩ := exec_ppu h
  · exact .inl kept.fb
  · exact .inl (by rw [hp]; rfl)
  · obtain ⟨⟨hp, lo, hi⟩, c, hit, -, e⟩ | ⟨e, -⟩ := dotStep_pixel hd
    · exact .inr ⟨rfl, hp, lo, hi, fun x y hxy => by rw [e]; exact fbRead_fbWrite_other _ _ _ c x y hxy⟩
    · exact .inl e
  · exact .inl (by rw [hp]; rfl)

/-- The state that a dot emits the interrupt signal from (R103). -/
theorem emitsInterrupt_iff (p : Ppu) : emitsInterrupt p = true
    ↔ p.phase = .verticalBlank ∧ p.scanline = 241#9 ∧ p.dot = 1#9 ∧ p.generateInterrupt = true := by
  simp [emitsInterrupt, vblankStarts, and_assoc]

/-- Settles O13: of the effects of an operation, only a dot that emits the signal counts it. -/
theorem interruptOnlyAtTheVblankDot : Obligations.InterruptOnlyAtTheVblankDot := by
  intro i s t h
  cases exec_effect h with
  | quiet hi _ _ hr => exact .inr ⟨fun ⟨hc, _⟩ => (by subst hc; cases hi), rfl, hr⟩
  | statusRead _ | oamWrite _ _ | dma _ _ _ | refusedReadout _ _ | reset => exact .inr ⟨nofun, rfl, nofun⟩
  | dataWrite hu => exact .inr ⟨nofun, (pbWrite_frame hu).nmi, nofun⟩
  | prgWrite hu => exact .inr ⟨nofun, (writePRG_frame hu).nmi, nofun⟩
  | patternWrite hu => exact .inr ⟨nofun, (writeCHR_frame hu).nmi, nofun⟩
  | nametableWrite hi _ | paletteWrite hi _ => exact .inr ⟨fun ⟨hc, _⟩ => (by subst hc; cases hi), rfl, nofun⟩
  | dot _ silent =>
    refine .inr ⟨fun ⟨_, at_⟩ => ?_, rfl, nofun⟩
    rw [(emitsInterrupt_iff s.ppu).mpr at_] at silent
    cases silent
  | interruptDot hd emits =>
    obtain ⟨phase, line, dot, gen⟩ := (emitsInterrupt_iff s.ppu).mp emits
    exact .inl ⟨rfl, phase, line, dot, gen, rfl, rfl, (dotStep_vblank hd).trans (by simp [phase, line, dot])⟩

/-- Settles O17: read off the effect of each operation. -/
theorem memoriesHaveOnlyTheirWriters : Obligations.MemoriesHaveOnlyTheirWriters := by
  intro i s t h
  cases exec_effect h with
  | quiet hi _ oam _ =>
    refine ⟨fun _ _ => oam, fun _ _ _ => ⟨rfl, rfl⟩, fun _ => rfl, fun _ _ => rfl, rfl, rfl⟩
  | statusRead _ | reset | refusedReadout _ _ =>
    exact ⟨fun _ _ => rfl, fun _ _ _ => ⟨rfl, rfl⟩, fun _ => rfl, fun _ _ => rfl, rfl, rfl⟩
  | oamWrite m b =>
    exact ⟨fun hne _ => absurd rfl (hne m b), fun _ _ _ => ⟨rfl, rfl⟩, fun _ => rfl, fun _ _ => rfl, rfl, rfl⟩
  | dma n _ _ =>
    exact ⟨fun _ hne => absurd rfl (hne n), fun _ _ _ => ⟨rfl, rfl⟩, fun _ => rfl, fun _ _ => rfl, rfl, rfl⟩
  | @dataWrite m b u hu =>
    have cart := (pbWrite_frame hu).cart
    exact ⟨fun _ _ => rfl, fun hne => absurd rfl (hne m b), nofun, nofun, congrArg Cart.prg cart,
      congrArg Cart.chr cart⟩
  | @prgWrite a b u hu =>
    have f := writePRG_frame hu
    exact ⟨fun _ _ => congrArg Ppu.oam f.ppu, fun _ _ hne => absurd rfl (hne a b), fun _ => f.pb, nofun,
      congrArg Cart.prg f.cart, congrArg Cart.chr f.cart⟩
  | @patternWrite a b u hu =>
    have f := writeCHR_frame hu
    exact ⟨fun _ _ => congrArg Ppu.oam f.ppu, nofun, fun _ => f.pb, fun _ hne => absurd rfl (hne a b),
      congrArg Cart.prg f.cart, congrArg Cart.chr f.cart⟩
  | nametableWrite hi hp | paletteWrite hi hp =>
    refine ⟨fun _ _ => rfl, fun _ hne => by simp [hi] at hne, ?_, fun _ _ => rfl, rfl, rfl⟩
    rintro (⟨a, b, rfl⟩ | ⟨a, b, rfl⟩)
    · cases hi
    · exact absurd rfl (hp a b)
  | dot hd _ | interruptDot hd _ =>
    exact ⟨fun _ _ => (dotStep_frame hd).oam, fun _ _ _ => ⟨rfl, rfl⟩, fun _ => rfl, fun _ _ => rfl, rfl, rfl⟩

/-- Settles O18: read off the effect of each operation; the three writes that reach the mapper grow the log as
`BusFrame` and `MapperFrame` say. -/
theorem diagnosticLogOnlyGrows : Obligations.DiagnosticLogOnlyGrows := by
  intro i s t h
  cases exec_effect h with
  | quiet _ _ _ _ | statusRead _ | oamWrite _ _ | dma _ _ _ | nametableWrite _ _ | paletteWrite _ _ | dot _ _
  | interruptDot _ _ | reset | refusedReadout _ _ => exact ⟨⟨[], by simp⟩, fun hne => absurd rfl hne⟩
  | @dataWrite m b _ hu => exact ⟨(pbWrite_frame hu).log, fun _ => .inl ⟨m, b, rfl⟩⟩
  | @prgWrite a b _ hu => exact ⟨(writePRG_frame hu).log, fun _ => .inr (.inl ⟨a, b, rfl⟩)⟩
  | @patternWrite a b _ hu => exact ⟨(writeCHR_frame hu).log, fun _ => .inr (.inr ⟨a, b, rfl⟩)⟩

end Operations

section Steps
variable {s t : State}

/-- What an operation leaves of the session: the cartridge, the parameters, the kind of its mapper and the first
refusal. -/
structure SessionKept (s t : State) : Prop where
  cart : t.cart = s.cart
  par : t.par = s.par
  fixed : ∀ one ram, s.mapper = .fixed one ram → ∃ ram', t.mapper = .fixed one ram' ∧ (ram' = none ↔ ram = none)
  variant : ∀ n st, s.mapper = .variant n st → ∃ st', t.mapper = .variant n st'
  refused : ∀ r, s.out.refused = some r → t.out.refused = some r

theorem SessionKept.of_mapper (cart : t.cart = s.cart) (par : t.par = s.par) (mapper : t.mapper = s.mapper)
    (refused : t.out.refused = s.out.refused) : SessionKept s t :=
  ⟨cart, par, fun _ ram hm => ⟨ram, mapper.trans hm, Iff.rfl⟩, fun _ st hm => ⟨st, mapper.trans hm⟩,
    fun _ hr => refused.trans hr⟩

theorem writePRG_session {a : Addr} {b : Byte} (h : writePRG s a b = .ok t) : SessionKept s t := by
  obtain rfl | ⟨n, st, banks, ram, hm, rfl, -⟩ := writePRG_ok h
  · exact .of_mapper rfl rfl rfl rfl
  · exact ⟨rfl, rfl, by simp [hm], fun k _ hk => by simp [hm] at hk; simp [hk.1], fun _ hr => hr⟩

theorem writeCHR_session {a : Addr} {b : Byte} (h : writeCHR s a b = .ok t) : SessionKept s t := by
  obtain rfl | ⟨one, ram, hm, -, rfl⟩ | ⟨n, st, banks, ram, hm, rfl, -⟩ := writeCHR_ok h
  · exact .of_mapper rfl rfl rfl rfl
  · exact ⟨rfl, rfl, fun o _ ho => by simp [hm] at ho; simp [ho.1, ← ho.2], by simp [hm], fun _ hr => hr⟩
  · exact ⟨rfl, rfl, by simp [hm], fun k _ hk => by simp [hm] at hk; simp [hk.1], fun _ hr => hr⟩

theorem pbWrite_session {a : Addr} {b : Byte} (h : pbWrite s a b = .ok t) : SessionKept s t := by
  obtain hc | ⟨-, -, rfl⟩ | ⟨-, -, rfl⟩ := pbWrite_ok h
  · exact writeCHR_session hc
  · exact .of_mapper rfl rfl rfl rfl
  · exact .of_mapper rfl rfl rfl rfl

theorem first_refusal_kept {o : Option RefuseReason} {r q : RefuseReason} (h : o = some r) :
    o.or (some q) = some r := by
  rw [h]
  rfl

theorem exec_session {i : Instr} (h : exec i s = .next t) : SessionKept s t := by
  cases exec_effect h with
  | quiet _ _ _ _ | statusRead _ | oamWrite _ _ | dma _ _ _ | nametableWrite _ _ | paletteWrite _ _ | dot _ _
  | interruptDot _ _ | reset => exact .of_mapper rfl rfl rfl rfl
  | dataWrite hu => exact { pbWrite_session hu with }
  | prgWrite hu => exact { writePRG_session hu with }
  | patternWrite hu => exact { writeCHR_session hu with }
  | refusedReadout _ _ => exact
    { SessionKept.of_mapper (s := s) (t := s) rfl rfl rfl rfl with refused := fun _ => first_refusal_kept }

/-- What holds after every operation, and depends on neither the schedule, the answer nor the refusal mark, holds after
every step. -/
theorem step_preserves {P : State → Prop}
    (frame : ∀ s sched out r, P s → P { s with schedule := sched, out := out, result := r })
    (op : ∀ i s t, P s → exec i s = .next t → P t) (hs : P s) (h : step s = .next t) : P t := by
  obtain ⟨-, ⟨-, rfl⟩ | ⟨c, rest, -, ⟨i, -, hi⟩ | ⟨r, -, rfl⟩⟩⟩ := step_next h
  · exact hs
  · exact op i _ t (frame s rest s.out s.result hs) hi
  · exact frame s rest _ _ hs

theorem step_session (h : step s = .next t) : SessionKept s t := by
  obtain ⟨-, ⟨-, rfl⟩ | ⟨c, rest, -, ⟨i, -, hi⟩ | ⟨r, -, rfl⟩⟩⟩ := step_next h
  · exact .of_mapper rfl rfl rfl rfl
  · exact { exec_session hi with }
  · exact
    { SessionKept.of_mapper (s := s) (t := s) rfl rfl rfl rfl with refused := fun _ => first_refusal_kept }

/-- Settles O7: every operation runs under the check of R36, and `SessionKept` keeps the first refusal. -/
theorem faultAndRefusalMarksAreKept : Obligations.FaultAndRefusalMarksAreKept := by
  refine ⟨fun s f hf => ⟨fun i => exec_of_faulted hf i, ?_⟩, fun s t r hr h => (step_session h).refused r hr⟩
  unfold step
  split
  · exact live_of_faulted hf
  · next c u hu =>
    obtain ⟨rest, -, rfl⟩ := fetch_some hu
    split
    · exact exec_of_faulted (s := { s with schedule := rest }) hf _
    · exact live_of_faulted hf
    · exact live_of_faulted hf

theorem SessionKept.sessionOk (k : SessionKept s t) (h : s.SessionOk) : t.SessionOk := by
  unfold State.SessionOk State.FixedSession at *
  cases hm : s.mapper with
  | fixed one ram =>
    obtain ⟨ram', hm', same⟩ := k.fixed one ram hm
    rw [hm']
    simp only [hm, k.cart, k.par] at h ⊢
    obtain ⟨number, bank, chr⟩ := h
    refine ⟨number, bank, ?_⟩
    cases ram <;> cases ram' <;> simp_all
  | variant n st =>
    obtain ⟨st', hm'⟩ := k.variant n st hm
    simp only [hm, hm', k.cart, k.par] at h ⊢
    exact h

/-- Settles O11: the fields of `SessionKept`. -/
theorem everyStepKeepsTheSession : Obligations.EveryStepKeepsTheSession := fun s t h =>
  have k : SessionKept s t := step_session h
  ⟨k.cart, k.par, k.fixed, k.variant, k.sessionOk⟩

end Steps
end Sys2Proof.Machine

/-! PROOF. The memory form and the legal positions, kept by every step. -/

namespace Sys2Proof.Machine

section Positions
variable {s t : State} {par : Params} {p q : Ppu}

theorem lineStart_cases (par : Params) : lineStart par = 0#9 ∨ lineStart par = 1#9 := by
  unfold lineStart
  split
  · exact .inl rfl
  · exact .inr rfl

/-- Dot 340 always ends its line. -/
theorem lineEndsAt_340 (h : p.dot = 340#9) : lineEndsAt par p = true := by
  unfold lineEndsAt preRenderEnds
  split <;> simp [h]

theorem Ppu.PositionOk.congr (h : p.PositionOk) (e : q.position = p.position) : q.PositionOk := by
  obtain ⟨phase, scanline, dot, -⟩ := Ppu.position_eq_iff.mp e
  unfold Ppu.PositionOk
  rwa [phase, scanline, dot]

/-- The line after the end of a line is the next of the 262 of a frame, and `evenFrame` flips after the last of them
(R97, R102, R104, R106). -/
theorem nextLine_line (h : p.PositionOk) (par : Params) :
    (advance par true (nextLine p)).PositionOk
      ∧ lineOrdinal (nextLine p) = (lineOrdinal p + 1) % 262
      ∧ (nextLine p).evenFrame = (if lineOrdinal p = 261 then !p.evenFrame else p.evenFrame) := by
  have start : lineStart par ≤ 340#9 := by obtain e | e := lineStart_cases par <;> rw [e] <;> decide
  obtain ⟨-, line⟩ := h
  rw [advance_lineEnd]
  cases hp : p.phase <;> simp only [hp] at line <;>
    simp only [Ppu.PositionOk, lineOrdinal, nextLine, start, true_and, hp]
  · simp
  · by_cases last : p.scanline = 239#9
    · simp [last]
    · have next : p.scanline + 1#9 ≠ 240#9 := by bv_omega
      simp only [renderLineEnd_phase, renderLineEnd_scanline, renderLineEnd_evenFrame, next, if_false, hp]
      refine ⟨by bv_omega, by bv_omega, (if_neg (by bv_omega)).symm⟩
  · simp [line]
  · by_cases last : p.scanline = 260#9
    · simp [vblankLineEnd, last]
    · have next : p.scanline + 1#9 ≠ 261#9 := by bv_omega
      simp only [vblankLineEnd, next, if_false, hp]
      refine ⟨by bv_omega, by bv_omega, (if_neg (by bv_omega)).symm⟩

theorem moveOn_positionOk (h : p.PositionOk) : (moveOn par p).PositionOk := by
  unfold moveOn
  split
  next he => exact (nextLine_line h par).1
  next he =>
    have : p.dot ≠ 340#9 := fun e => he (lineEndsAt_340 e)
    obtain ⟨dot, line⟩ := h
    exact ⟨by simp only [advance_withinLine]; bv_omega, line⟩

theorem moveOn_spritesOk (h : p.SpritesOk) : (moveOn par p).SpritesOk := by
  unfold moveOn nextLine vblankLineEnd
  cases p.phase <;> dsimp only
  · split <;> exact h
  · split
    · exact evaluateSprites_ok p _
    · exact h
  · split <;> exact h
  · split
    · split <;> exact h
    · exact h

theorem dotStep_positionOk (h : dotStep s = .ok q) (hp : s.ppu.PositionOk) : q.PositionOk := by
  obtain ⟨p, ha, rfl⟩ := dotStep_ok h
  exact moveOn_positionOk (hp.congr (dotAction_frame ha).position)

theorem dotStep_spritesOk (h : dotStep s = .ok q) (hp : s.ppu.SpritesOk) : q.SpritesOk := by
  obtain ⟨p, ha, rfl⟩ := dotStep_ok h
  refine moveOn_spritesOk ?_
  rwa [Ppu.SpritesOk, (dotAction_frame ha).lineSprites]

theorem exec_positionOk {i : Instr} (hp : s.ppu.PositionOk) (h : exec i s = .next t) : t.ppu.PositionOk := by
  obtain ⟨kept, -⟩ | ⟨-, e, -⟩ | ⟨-, hd⟩ | ⟨-, e⟩ := exec_ppu h
  · exact hp.congr kept.position
  · exact hp.congr (by rw [e]; rfl)
  · exact dotStep_positionOk hd hp
  · rw [e]
    exact ⟨by rw [resetPpu_dot]; decide, rfl⟩

theorem exec_spritesOk {i : Instr} (hp : s.ppu.SpritesOk) (h : exec i s = .next t) : t.ppu.SpritesOk := by
  obtain ⟨kept, -⟩ | ⟨-, e, -⟩ | ⟨-, hd⟩ | ⟨-, e⟩ := exec_ppu h
  · rwa [Ppu.SpritesOk, kept.lineSprites]
  · rw [e]
    exact hp
  · exact dotStep_spritesOk hd hp
  · rw [e]
    exact ⟨by simp, List.Pairwise.nil⟩

/-- Settles O10: each operation keeps both, so `step_preserves` gives them for a step. -/
theorem everyStepKeepsThePositionLegal : Obligations.EveryStepKeepsThePositionLegal := fun _ _ h =>
  ⟨fun hp => step_preserves (P := fun u => u.ppu.PositionOk) (fun _ _ _ _ hu => hu) (fun _ _ _ => exec_positionOk) hp h,
    fun hp => step_preserves (P := fun u => u.ppu.SpritesOk) (fun _ _ _ _ hu => hu) (fun _ _ _ => exec_spritesOk) hp h⟩

end Positions

section MemoryForm
variable {s t : State}

theorem variantRam_wf {ram ram' : ByteMemory} {b : Byte} (h : Memory.wf chrRamSize ram)
    (e : ram' = ram ∨ ∃ a, a < chrRamSize ∧ ram' = Memory.write ram a b) : Memory.wf chrRamSize ram' := by
  obtain rfl | ⟨a, ha, rfl⟩ := e
  · exact h
  · exact Memory.wf_write h ha

theorem writePRG_chrRam {a : Addr} {b : Byte} (h : writePRG s a b = .ok t) (hs : Memory.wf chrRamSize s.chrRamCells) :
    Memory.wf chrRamSize t.chrRamCells := by
  obtain rfl | ⟨n, st, banks, ram, hm, rfl, hr⟩ := writePRG_ok h
  · exact hs
  · simp only [State.chrRamCells, hm] at hs ⊢
    exact variantRam_wf hs hr

theorem writeCHR_chrRam {a : Addr} {b : Byte} (h : writeCHR s a b = .ok t) (hs : Memory.wf chrRamSize s.chrRamCells) :
    Memory.wf chrRamSize t.chrRamCells := by
  obtain rfl | ⟨one, ram, hm, ha, rfl⟩ | ⟨n, st, banks, ram, hm, rfl, hr⟩ := writeCHR_ok h
  · exact hs
  · simp only [State.chrRamCells, hm] at hs ⊢
    exact Memory.wf_write hs (by unfold chrRamSize; bv_omega)
  · simp only [State.chrRamCells, hm] at hs ⊢
    exact variantRam_wf hs hr

/-- What a mapper write keeps leaves the memory form to CHR RAM. -/
theorem MapperFrame.memoryOk (f : MapperFrame s t) (h : s.MemoryOk) (ram : Memory.wf chrRamSize t.chrRamCells) :
    t.MemoryOk := by
  obtain ⟨oam, fb, nt, pal, -, prg, chr⟩ := h
  unfold State.MemoryOk
  rw [f.ppu, f.pb, f.cart]
  exact ⟨oam, fb, nt, pal, ram, prg, chr⟩

theorem writePRG_memoryOk {a : Addr} {b : Byte} (h : writePRG s a b = .ok t) (hs : s.MemoryOk) : t.MemoryOk := by
  obtain ⟨-, -, -, -, ram, -⟩ := id hs
  exact (writePRG_frame h).memoryOk hs (writePRG_chrRam h ram)

theorem writeCHR_memoryOk {a : Addr} {b : Byte} (h : writeCHR s a b = .ok t) (hs : s.MemoryOk) : t.MemoryOk := by
  obtain ⟨-, -, -, -, ram, -⟩ := id hs
  exact (writeCHR_frame h).memoryOk hs (writeCHR_chrRam h ram)

theorem nametableWrite_memoryOk (a : Addr) (b : Byte) (hs : s.MemoryOk) :
    State.MemoryOk { s with
      pb := { s.pb with ntRam := Memory.write s.pb.ntRam (ntOffset s.cart.mirroring a) b } } := by
  obtain ⟨oam, fb, nt, rest⟩ := hs
  exact ⟨oam, fb, Memory.wf_write nt (ntOffset_lt _ _), rest⟩

theorem paletteWrite_memoryOk (a : Addr) (b : Byte) (hs : s.MemoryOk) :
    State.MemoryOk { s with
      pb := { s.pb with palette := Memory.write s.pb.palette (paletteEntry s a) b } } := by
  obtain ⟨oam, fb, nt, pal, rest⟩ := hs
  exact ⟨oam, fb, nt, Memory.wf_write pal (paletteEntry_lt _ _), rest⟩

theorem pbWrite_memoryOk {a : Addr} {b : Byte} (h : pbWrite s a b = .ok t) (hs : s.MemoryOk) : t.MemoryOk := by
  obtain hc | ⟨-, -, rfl⟩ | ⟨-, -, rfl⟩ := pbWrite_ok h
  · exact writeCHR_memoryOk hc hs
  · exact nametableWrite_memoryOk a b hs
  · exact paletteWrite_memoryOk a b hs

/-- A change of the PPU keeps the memory form where OAM and the frame buffer keep theirs. -/
theorem State.MemoryOk.withPpu (h : s.MemoryOk) {p : Ppu} (oam : Memory.wf 256 p.oam)
    (fb : ∀ y : Fin 240, Memory.wf 256 p.fb[y]) : State.MemoryOk { s with ppu := p } := by
  obtain ⟨-, -, rest⟩ := h
  exact ⟨oam, fb, rest⟩

theorem dotStep_memoryOk {p : Ppu} (h : dotStep s = .ok p) (hs : s.MemoryOk) : State.MemoryOk { s with ppu := p } := by
  have oam := (dotStep_frame h).oam
  obtain ⟨hoam, hfb, -⟩ := id hs
  refine hs.withPpu (oam ▸ hoam) ?_
  obtain ⟨⟨-, -, hi⟩, c, hit, -, e⟩ | ⟨e, -⟩ := dotStep_pixel h
  · rw [e]
    exact fbWrite_wf _ _ _ c (by bv_omega) hfb
  · rwa [e]

theorem exec_memoryOk {i : Instr} (hs : s.MemoryOk) (h : exec i s = .next t) : t.MemoryOk := by
  obtain ⟨hoam, hfb, rest⟩ := id hs
  cases exec_effect h with
  | quiet _ kept oam _ => exact ⟨by rwa [oam], by rw [kept.fb]; exact hfb, rest⟩
  | statusRead _ | reset | refusedReadout _ _ => exact hs
  | oamWrite _ _ => exact ⟨Memory.wf_write hoam (s.ppu.oamAddr).isLt, hfb, rest⟩
  | dma _ src _ => exact ⟨Memory.wf_ofFn _, hfb, rest⟩
  | dataWrite hu =>
    obtain ⟨-, -, rest'⟩ := pbWrite_memoryOk hu hs
    exact ⟨hoam, hfb, rest'⟩
  | prgWrite hu =>
    have ok := writePRG_memoryOk hu hs
    exact ok
  | patternWrite hu =>
    have ok := writeCHR_memoryOk hu hs
    exact ok
  | nametableWrite _ _ => exact nametableWrite_memoryOk _ _ hs
  | paletteWrite _ _ => exact paletteWrite_memoryOk _ _ hs
  | dot hd _ | interruptDot hd _ => exact dotStep_memoryOk hd hs

/-- Settles O9: each operation keeps the form, so `step_preserves` gives it for a step. -/
theorem everyStepKeepsTheMemoryForm : Obligations.EveryStepKeepsTheMemoryForm := fun _ _ hs h =>
  step_preserves (P := State.MemoryOk) (fun _ _ _ _ hu => hu) (fun _ _ _ => exec_memoryOk) hs h

end MemoryForm

end Sys2Proof.Machine

/-! PROOF. `greyscale` has no effect (R24, decision D12): every function of the model but the mask write and the reset
passes it on unread. -/

namespace Sys2Proof.Machine

/-- The PPU with another `greyscale`. -/
def Ppu.greyed (g : Bool) (p : Ppu) : Ppu := { p with greyscale := g }

/-- The state with another `greyscale`. -/
def State.greyed (g : Bool) (s : State) : State := { s with ppu := s.ppu.greyed g }

/-- Two outcomes are the same but for the `greyscale` of the next states. -/
def AlikeButGrey (o o' : Outcome) : Prop :=
  match o with
  | .next t => ∃ g, o' = .next (t.greyed g)
  | .fault f => o' = .fault f
  | .refused r => o' = .refused r

section Reads
variable (g : Bool) (s : State)

theorem greyed_v : (s.greyed g).ppu.v = s.ppu.v := rfl

theorem firstWrite_greyed : (s.greyed g).ppu.firstWrite = s.ppu.firstWrite := rfl

theorem pbRead_greyed (a : Addr) : pbRead (s.greyed g) a = pbRead s a := rfl

theorem readPRG_greyed (a : Addr) : readPRG (s.greyed g) a = readPRG s a := rfl

theorem getPagePtr_greyed (a : Addr) : getPagePtr (s.greyed g) a = getPagePtr s a := rfl

theorem pbReadPalette_greyed (i : Addr) : pbReadPalette (s.greyed g) i = pbReadPalette s i := rfl

theorem emitsInterrupt_greyed : emitsInterrupt (s.greyed g).ppu = emitsInterrupt s.ppu := rfl

end Reads

section Writes
variable (g : Bool) (s : State) (b : Byte)

theorem variantWrite_greyed (n : Nat) (st : VariantState) (w : Option VariantWrite) :
    variantWrite (s.greyed g) n st w b = (variantWrite s n st w b).map (State.greyed g) := by
  unfold variantWrite
  rcases w with _ | ⟨banks, _ | offset⟩
  · rfl
  · rfl
  · dsimp only
    split <;> rfl

theorem writePRG_greyed (a : Addr) : writePRG (s.greyed g) a b = (writePRG s a b).map (State.greyed g) := by
  have same : (s.greyed g).mapper = s.mapper := rfl
  unfold writePRG
  rw [same]
  split
  · rfl
  · cases s.mapper with
    | fixed _ _ => rfl
    | variant n st => exact variantWrite_greyed g s b n st _

theorem writeCHR_greyed (a : Addr) : writeCHR (s.greyed g) a b = (writeCHR s a b).map (State.greyed g) := by
  have same : (s.greyed g).mapper = s.mapper := rfl
  unfold writeCHR
  rw [same]
  split
  · rfl
  · rcases s.mapper with ⟨one, _ | ram⟩ | ⟨n, st⟩
    · rfl
    · rfl
    · exact variantWrite_greyed g s b n st _

theorem pbWrite_greyed (a : Addr) : pbWrite (s.greyed g) a b = (pbWrite s a b).map (State.greyed g) := by
  unfold pbWrite
  rw [writeCHR_greyed]
  split_ifs <;> rfl

end Writes

section Cycle
variable (g : Bool) (s : State) (par : Params) (p : Ppu)

theorem background_greyed (x : Nat) : background (s.greyed g) x = background s x := rfl

theorem scanSprites_greyed (x y : Nat) (l : List (Fin 64)) : scanSprites (s.greyed g) x y l = scanSprites s x y l := by
  induction l with
  | nil => rfl
  | cons i l ih =>
    unfold scanSprites
    rw [ih]
    rfl

theorem sprites_greyed (x y : Nat) : sprites (s.greyed g) x y = sprites s x y := by
  unfold sprites
  rw [scanSprites_greyed]
  rfl

theorem pixel_greyed (x y : Nat) : pixel (s.greyed g) x y = (pixel s x y).map (Ppu.greyed g) := by
  unfold pixel
  rw [background_greyed, sprites_greyed]
  cases background s x with
  | error f => rfl
  | ok bg =>
    cases sprites s x y with
    | error f => rfl
    | ok scan =>
      simp only [bind, Except.bind, pbReadPalette_ok]
      rfl

theorem coarseStep_greyed (x : Nat) : coarseStep (p.greyed g) x = (coarseStep p x).greyed g := by
  unfold coarseStep
  rw [apply_ite (Ppu.greyed g)]
  rfl

theorem horizontalCopy_greyed : horizontalCopy par (p.greyed g) = (horizontalCopy par p).greyed g := by
  unfold horizontalCopy
  rw [apply_ite (Ppu.greyed g)]
  rfl

theorem verticalCopy_greyed : verticalCopy par (p.greyed g) = (verticalCopy par p).greyed g := by
  unfold verticalCopy
  rw [apply_ite (Ppu.greyed g)]
  rfl

theorem advance_greyed (e : Bool) : advance par e (p.greyed g) = (advance par e p).greyed g := by
  unfold advance
  rw [apply_ite (Ppu.greyed g)]
  rfl

theorem preRenderAction_greyed : preRenderAction par (p.greyed g) = (preRenderAction par p).greyed g := by
  unfold preRenderAction
  rw [horizontalCopy_greyed, verticalCopy_greyed, apply_ite (Ppu.greyed g), apply_ite (Ppu.greyed g),
    apply_ite (Ppu.greyed g)]
  rfl

theorem preRenderDot_greyed : preRenderDot par (p.greyed g) = (preRenderDot par p).greyed g := by
  unfold preRenderDot
  rw [preRenderAction_greyed]
  dsimp only
  rw [apply_ite (Ppu.greyed g), ← advance_greyed, ← advance_greyed]
  rfl

theorem renderAction_greyed : renderAction (s.greyed g) = (renderAction s).map (Ppu.greyed g) := by
  have visible : (s.greyed g).ppu.dot = s.ppu.dot := rfl
  have line : (s.greyed g).ppu.scanline = s.ppu.scanline := rfl
  unfold renderAction
  dsimp only
  rw [visible, pixel_greyed]
  split
  · rw [line]
    cases pixel s (s.ppu.dot.toNat - 1) s.ppu.scanline.toNat with
    | error f => rfl
    | ok q => exact congrArg Except.ok (coarseStep_greyed g q _)
  · split
    · refine congrArg Except.ok (Eq.trans ?_ (apply_ite (Ppu.greyed g) _ _ _).symm)
      rfl
    · split
      · exact congrArg Except.ok (horizontalCopy_greyed g s.par s.ppu)
      · rfl

theorem renderDot_greyed : renderDot (s.greyed g) = (renderDot s).map (Ppu.greyed g) := by
  unfold renderDot
  rw [renderAction_greyed]
  cases renderAction s with
  | error f => rfl
  | ok q =>
    refine congrArg Except.ok (Eq.trans ?_ (apply_ite (Ppu.greyed g) _ _ _).symm)
    rw [← advance_greyed, ← advance_greyed]
    rfl

theorem postRenderDot_greyed : postRenderDot par (p.greyed g) = (postRenderDot par p).greyed g := by
  unfold postRenderDot
  rw [apply_ite (Ppu.greyed g), ← advance_greyed, ← advance_greyed]
  rfl

theorem vblankLineEnd_greyed : vblankLineEnd (p.greyed g) = (vblankLineEnd p).greyed g := by
  unfold vblankLineEnd
  rw [apply_ite (Ppu.greyed g)]
  rfl

theorem vblankDot_greyed : vblankDot par (p.greyed g) = (vblankDot par p).greyed g := by
  have started : (if vblankStarts (p.greyed g) then setVblank (p.greyed g) else p.greyed g)
      = (if vblankStarts p then setVblank p else p).greyed g := by
    rw [apply_ite (Ppu.greyed g)]
    rfl
  unfold vblankDot
  rw [started]
  generalize (if vblankStarts p then setVblank p else p) = q
  dsimp only
  rw [vblankLineEnd_greyed, apply_ite (Ppu.greyed g), ← advance_greyed, ← advance_greyed]
  rfl

theorem dotStep_greyed : dotStep (s.greyed g) = (dotStep s).map (Ppu.greyed g) := by
  have phase : (s.greyed g).ppu.phase = s.ppu.phase := rfl
  unfold dotStep
  rw [phase, renderDot_greyed]
  cases s.ppu.phase
  · exact congrArg Except.ok (preRenderDot_greyed g s.par s.ppu)
  · rfl
  · exact congrArg Except.ok (postRenderDot_greyed g s.par s.ppu)
  · exact congrArg Except.ok (vblankDot_greyed g s.par s.ppu)

end Cycle

section Operations
variable (g : Bool) {s : State}

theorem alikeButGrey_live {k k' : Outcome} (h : AlikeButGrey k k') :
    AlikeButGrey (live s k) (live (s.greyed g) k') := by
  change AlikeButGrey (live s k) (live s k')
  unfold live
  split
  · rfl
  · exact h

theorem busRead_alike (a : Addr) : AlikeButGrey (busRead s a) (busRead (s.greyed g) a) := by
  apply alikeButGrey_live
  rw [pbRead_greyed]
  cases pbRead s a with
  | ok d => exact ⟨g, rfl⟩
  | error f => rfl

theorem finishOr_alike {x : Except Fault State} (r : OpResult) :
    AlikeButGrey (finishOr x fun _ => r) (finishOr (x.map (State.greyed g)) fun _ => r) := by
  cases x with
  | ok t => exact ⟨g, rfl⟩
  | error f => rfl

theorem busWrite_alike (a : Addr) (b : Byte) : AlikeButGrey (busWrite s a b) (busWrite (s.greyed g) a b) := by
  apply alikeButGrey_live
  rw [pbWrite_greyed]
  exact finishOr_alike g .nothing

theorem execPrgR_alike (a : BitVec 15) : AlikeButGrey (execPrgR a s) (execPrgR a (s.greyed g)) := by
  apply alikeButGrey_live
  rw [readPRG_greyed]
  cases readPRG s (prgWindowAddr a) with
  | ok d => exact ⟨g, rfl⟩
  | error f => rfl

theorem execPrgW_alike (a : BitVec 15) (b : Byte) : AlikeButGrey (execPrgW a b s) (execPrgW a b (s.greyed g)) := by
  apply alikeButGrey_live
  rw [writePRG_greyed]
  exact finishOr_alike g .nothing

theorem execPbRdpal_alike (i : BitVec 5) : AlikeButGrey (execPbRdpal i s) (execPbRdpal i (s.greyed g)) := by
  apply alikeButGrey_live
  rw [pbReadPalette_greyed]
  cases pbReadPalette s (0#11 ++ i) with
  | ok d => exact ⟨g, rfl⟩
  | error f => rfl

theorem dataReadEffect_greyed (par : Params) (p : Ppu) (a : Addr) (d : Byte) :
    dataReadEffect par (p.greyed g) a d = ((dataReadEffect par p a d).1.greyed g, (dataReadEffect par p a d).2) := by
  have same : (incV (p.greyed g)).v = (incV p).v := rfl
  unfold dataReadEffect
  dsimp only
  rw [same]
  cases readIsDelayed par a (incV p).v <;> rfl

theorem execPpudataR_alike (m : BitVec 10) : AlikeButGrey (execPpudataR m s) (execPpudataR m (s.greyed g)) := by
  apply alikeButGrey_live
  rw [pbRead_greyed, greyed_v]
  cases pbRead s (vBusAddr s.ppu.v) with
  | ok d =>
    have effect := dataReadEffect_greyed g s.par s.ppu (vBusAddr s.ppu.v) d
    refine ⟨g, ?_⟩
    dsimp only [State.greyed]
    rw [effect]
    rfl
  | error f => rfl

theorem execPpudataW_alike (m : BitVec 10) (b : Byte) :
    AlikeButGrey (execPpudataW m b s) (execPpudataW m b (s.greyed g)) := by
  apply alikeButGrey_live
  rw [pbWrite_greyed, greyed_v]
  cases pbWrite s (vBusAddr s.ppu.v) b with
  | ok u => exact ⟨g, rfl⟩
  | error f => rfl

theorem execOamdmaW_alike (n : Byte) : AlikeButGrey (execOamdmaW n s) (execOamdmaW n (s.greyed g)) := by
  apply alikeButGrey_live
  split
  · rw [getPagePtr_greyed]
    cases getPagePtr s (n ++ 0#8) with
    | ok src => exact ⟨g, rfl⟩
    | error f => rfl
  · exact ⟨g, rfl⟩

theorem execCycle_alike : AlikeButGrey (execCycle s) (execCycle (s.greyed g)) := by
  apply alikeButGrey_live
  rw [dotStep_greyed, emitsInterrupt_greyed]
  cases dotStep s with
  | ok p =>
    cases emitsInterrupt s.ppu <;> exact ⟨g, rfl⟩
  | error f => rfl

theorem execFbread_alike (x y : Nat) : AlikeButGrey (execFbread x y s) (execFbread x y (s.greyed g)) := by
  apply alikeButGrey_live
  split <;> exact ⟨g, rfl⟩

theorem exec_alike (i : Instr) : AlikeButGrey (exec i s) (exec i (s.greyed g)) := by
  cases i with
  | ppumaskW _ b => exact alikeButGrey_live g ⟨b.getLsbD 0, rfl⟩
  | reset => exact alikeButGrey_live g ⟨s.par.resetMask.getLsbD 0, rfl⟩
  | ppuctrlW _ _ | ppuctrlR _ | ppumaskR _ | ppustatusR _ | ppustatusW _ _ | oamaddrW _ _ | oamaddrR _ | oamdataR _
  | oamdataW _ _ | ppuscrollR _ | ppuaddrR _ | oamdmaR | ctrlStrobeW _ | ctrl1R | ctrl2R | buttons1 _ | buttons2 _ =>
    exact alikeButGrey_live g ⟨g, rfl⟩
  | ppuscrollW _ b | ppuaddrW _ b =>
    refine alikeButGrey_live g ⟨g, ?_⟩
    rw [firstWrite_greyed]
    cases s.ppu.firstWrite <;> rfl
  | ppudataR m => exact execPpudataR_alike g m
  | ppudataW m b => exact execPpudataW_alike g m b
  | oamdmaW n => exact execOamdmaW_alike g n
  | prgR a => exact execPrgR_alike g a
  | prgW a b => exact execPrgW_alike g a b
  | pbPatR _ | pbNtR _ | pbNtR3000 _ | pbNtR3800 _ | pbNtR3C00 _ | pbNtR3E00 _ | pbPalR _ | pbOodR _ | pbOodR8000 _ =>
    exact busRead_alike g _
  | pbPatW _ _ | pbNtW _ _ | pbNtW3000 _ _ | pbNtW3800 _ _ | pbNtW3C00 _ _ | pbNtW3E00 _ _ | pbPalW _ _ | pbOodW _ _
  | pbOodW8000 _ _ => exact busWrite_alike g _ _
  | pbRdpal i => exact execPbRdpal_alike g i
  | cycle => exact execCycle_alike g
  | fbread x y => exact execFbread_alike g x y

end Operations

/-- Settles O19: every operation of the state with another `greyscale` is `exec_alike` to the operation itself. -/
theorem greyscaleHasNoEffect : Obligations.GreyscaleHasNoEffect := by
  intro i s g
  have alike := exec_alike g (s := s) i
  cases h : exec i s <;> rw [h] at alike <;> exact alike

end Sys2Proof.Machine

/-! PROOF. The PPU ports (R56 to R59, R73 to R86). -/

namespace Sys2Proof.Machine

section Fields
variable (p : Ppu) (b : Byte)

theorem applyControl_t_fields :
    (applyControl p b).t.extractLsb' 10 2 = b.extractLsb' 0 2
      ∧ (applyControl p b).t.extractLsb' 12 3 = p.t.extractLsb' 12 3
      ∧ (applyControl p b).t.extractLsb' 0 10 = p.t.extractLsb' 0 10 := by
  rw [applyControl_t]
  refine ⟨?_, ?_, ?_⟩ <;>
    (refine BitVec.eq_of_getLsbD_eq fun k hk => ?_
     interval_cases k <;> simp)

theorem applyScrollFirst_t_fields :
    (applyScrollFirst p b).t.extractLsb' 0 5 = b.extractLsb' 3 5
      ∧ (applyScrollFirst p b).t.extractLsb' 5 10 = p.t.extractLsb' 5 10 := by
  rw [applyScrollFirst_t]
  refine ⟨?_, ?_⟩ <;>
    (refine BitVec.eq_of_getLsbD_eq fun k hk => ?_
     interval_cases k <;> simp)

theorem applyScrollSecond_t_fields :
    (applyScrollSecond p b).t.extractLsb' 5 5 = b.extractLsb' 3 5
      ∧ (applyScrollSecond p b).t.extractLsb' 12 3 = b.extractLsb' 0 3
      ∧ (applyScrollSecond p b).t.extractLsb' 0 5 = p.t.extractLsb' 0 5
      ∧ (applyScrollSecond p b).t.extractLsb' 10 2 = p.t.extractLsb' 10 2 := by
  rw [applyScrollSecond_t]
  refine ⟨?_, ?_, ?_, ?_⟩ <;>
    (refine BitVec.eq_of_getLsbD_eq fun k hk => ?_
     interval_cases k <;> simp)

theorem statusByte_low : (statusByte p).extractLsb' 0 6 = 0#6 := by
  refine BitVec.eq_of_getLsbD_eq fun k hk => ?_
  simp only [statusByte, BitVec.getLsbD_extractLsb', BitVec.getLsbD_append]
  interval_cases k <;> simp

end Fields

/-- Settles O20: the write is `applyControl`, and `t` is compared field by field. -/
theorem controlWriteSetsItsFields : Obligations.ControlWriteSetsItsFields := fun _ b s ha =>
  ⟨(applyControl s.ppu b).t, ppuWrite_of_alive ha _, applyControl_t_fields s.ppu b⟩

/-- Settles O21: the write is `applyMask`, whose fields are the stated bits by definition. -/
theorem maskWriteSetsItsFields : Obligations.MaskWriteSetsItsFields := fun _ _ _ ha => ppuWrite_of_alive ha _

theorem exec_ppustatusR {s : State} (ha : s.Alive) (m : BitVec 10) :
    exec (.ppustatusR m) s = .next { s with ppu := statusReadEffect s.ppu, result := .byte (statusByte s.ppu) } :=
  live_of_alive ha

/-- Settles O22: the flags of the status byte before the read and after `statusReadEffect`. -/
theorem statusReadClearsVblankOnly : Obligations.StatusReadClearsVblankOnly := by
  intro m s ha
  have first := exec_ppustatusR ha m
  obtain ⟨vblank, hit⟩ := statusByte_flags s.ppu
  obtain ⟨cleared, kept⟩ := statusByte_flags (statusReadEffect s.ppu)
  refine ⟨statusByte s.ppu, statusByte (statusReadEffect s.ppu), first, vblank, hit, statusByte_low s.ppu,
    fun t h => ?_, cleared, kept⟩
  have alive (p : Ppu) (r : OpResult) : State.Alive { s with ppu := p, result := r } := ha
  rw [first] at h
  injection h with h
  subst h
  exact exec_ppustatusR (alive _ _) m

/-- Settles O23: the three operations by definition, and the laws of a memory write. -/
theorem oamPortsUseTheCursor : Obligations.OamPortsUseTheCursor := by
  intro m b s ha
  refine ⟨ppuWrite_of_alive ha _, live_of_alive ha, _, _, ppuWrite_of_alive ha _, ?_, Memory.read_write_same _ _ _,
    fun a h => Memory.read_write_other _ _ _ _ h⟩
  rw [BitVec.toNat_add]
  rfl

/-- Settles O24: one case for each value of the toggle, with `t` compared field by field. -/
theorem scrollWriteFollowsTheToggle : Obligations.ScrollWriteFollowsTheToggle := by
  intro m b s ha
  cases hf : s.ppu.firstWrite with
  | true =>
    refine ⟨(applyScrollFirst s.ppu b).t, fun _ => ⟨?_, applyScrollFirst_t_fields s.ppu b⟩, nofun⟩
    simp only [exec, execPpuscrollW, hf, if_true, ppuWrite_of_alive ha]
    rfl
  | false =>
    refine ⟨(applyScrollSecond s.ppu b).t, nofun, fun _ => ⟨?_, applyScrollSecond_t_fields s.ppu b⟩⟩
    simp only [exec, execPpuscrollW, hf, Bool.false_eq_true, if_false, ppuWrite_of_alive ha]
    rfl

theorem vBusAddr_toNat (v : BitVec 15) : (vBusAddr v).toNat = v.toNat % 0x4000 := by
  simp only [vBusAddr, BitVec.toNat_setWidth, BitVec.extractLsb'_toNat, Nat.shiftRight_zero]
  omega

theorem incV_v_toNat (p : Ppu) : (incV p).v.toNat = (p.v.toNat + if p.increment = .by1 then 1 else 32) % 0x8000 := by
  cases h : p.increment <;> simp [incV, stepOf, h]

/-- A data read is delayed where the address that the parameter tests is below the palette (R83). -/
theorem readIsDelayed_iff (par : Params) (a : Addr) (v : BitVec 15) :
    readIsDelayed par a v = true
      ↔ (par.readDelayAddr = .pre ∧ a.toNat < 0x3F00) ∨ (par.readDelayAddr = .post ∧ v.toNat < 0x3F00) := by
  cases h : par.readDelayAddr <;> simp [readIsDelayed, h, BitVec.lt_def]

theorem dataReadEffect_delayed {par : Params} {p : Ppu} {a : Addr} {d : Byte}
    (h : readIsDelayed par a (incV p).v = true) :
    dataReadEffect par p a d = ({ incV p with readBuffer := d }, p.readBuffer) :=
  if_pos h

theorem dataReadEffect_direct {par : Params} {p : Ppu} {a : Addr} {d : Byte}
    (h : readIsDelayed par a (incV p).v ≠ true) : dataReadEffect par p a d = (incV p, d) :=
  if_neg h

/-- Settles O26: the fetch does not fault in a fixed-mapping session, and `readIsDelayed_iff` decides between buffer
and byte. -/
theorem dataReadIsDelayedBelowThePalette : Obligations.DataReadIsDelayedBelowThePalette := by
  intro m s ha hs
  obtain ⟨d, hd⟩ := pbRead_fixed hs (vBusAddr_lt s.ppu.v)
  have reads (p : Ppu) (r : Byte)
      (e : dataReadEffect s.par s.ppu (vBusAddr s.ppu.v) d = (p, r)) :
      exec (.ppudataR m) s = .next { s with ppu := p, result := .byte r } := by
    simp only [exec, execPpudataR, live_of_alive ha, hd, e, finish]
  refine ⟨vBusAddr s.ppu.v, d, (incV s.ppu).v, vBusAddr_toNat _, hd, incV_v_toNat _, fun delayed => reads _ _ ?_,
    fun direct => reads _ _ ?_⟩
  · exact dataReadEffect_delayed ((readIsDelayed_iff _ _ _).mpr delayed)
  · refine dataReadEffect_direct fun h => ?_
    obtain ⟨pre, lt⟩ | ⟨post, lt⟩ := (readIsDelayed_iff _ _ _).mp h <;>
      obtain ⟨pre', ge⟩ | ⟨post', ge⟩ := direct
    · omega
    · simp [pre] at post'
    · simp [post] at pre'
    · omega

/-- Settles O27: the PictureBus write does not fault in a fixed-mapping session, and it keeps the PPU. -/
theorem dataWriteStoresAndIncrements : Obligations.DataWriteStoresAndIncrements := by
  intro m b s ha hs
  obtain ⟨u, hu⟩ := pbWrite_fixed hs (b := b) (vBusAddr_lt s.ppu.v)
  refine ⟨vBusAddr s.ppu.v, u, (incV s.ppu).v, vBusAddr_toNat _, hu, incV_v_toNat _, ?_⟩
  simp only [exec, execPpudataW, live_of_alive ha, hu, finish, (pbWrite_frame hu).ppu]
  rfl

/-- Settles O29: the six reads are one draw, and the status write writes the PPU back as it was. -/
theorem oppositeDirectionsOfThePorts : Obligations.OppositeDirectionsOfThePorts := by
  intro m b s i ha
  refine ⟨?_, ppuWrite_of_alive ha _⟩
  rintro (rfl | rfl | rfl | rfl | rfl | rfl) <;> exact live_of_alive ha

section Dma
variable (c : Byte) (src : Byte → Byte)

/-- Byte `k` of the page is at `c + k` modulo 256 (R85). -/
theorem read_dmaOam (k : Byte) : Memory.read (dmaOam c src) ((c.toNat + k.toNat) % 256) = src k := by
  rw [dmaOam, Memory.read_ofFn _ _ _ (by omega)]
  congr 1
  bv_omega

end Dma

theorem pageAddr_toNat (n : Byte) : (n ++ 0#8 : Addr).toNat = n.toNat * 256 := by
  rw [toNat_append_eq]
  simp

/-- The offset of an address of the window in the fixed variant, as a number (R125). -/
theorem fixedPrgOffset_toNat (one : Bool) {a : Addr} (h : 0x8000 ≤ a.toNat) :
    fixedPrgOffset one a = if one then (a.toNat - 0x8000) % 0x4000 else a.toNat - 0x8000 := by
  have sub : (a - 0x8000#16).toNat = a.toNat - 0x8000 := by bv_omega
  cases one with
  | true =>
    have mask : (0x3FFF#16).toNat = 2 ^ 14 - 1 := rfl
    rw [fixedPrgOffset, if_pos rfl, if_pos rfl, BitVec.toNat_and, sub, mask, Nat.and_two_pow_sub_one_eq_mod]
  | false => rw [fixedPrgOffset, if_neg nofun, if_neg nofun, sub]

theorem exec_oamdmaW_view {s : State} (ha : s.Alive) {n : Byte} (hn : 0x80 ≤ n.toNat) {src : Byte → Byte}
    (h : getPagePtr s (n ++ 0#8) = .ok src) :
    exec (.oamdmaW n) s
      = .next { s with ppu := { s.ppu with oam := dmaOam s.ppu.oamAddr src }, result := .nothing } := by
  have page : 0x80#8 ≤ n := hn
  simp only [exec, execOamdmaW, live_of_alive ha, page, if_true, h, finish]

theorem exec_oamdmaW_cpuPage {s : State} (ha : s.Alive) {n : Byte} (hn : n.toNat < 0x80) :
    exec (.oamdmaW n) s = .next { s with
      ppu := { s.ppu with oam := dmaOam s.ppu.oamAddr (Config.cpuPage s.draws n) }
      draws := s.draws + 1
      result := .nothing } := by
  have page : ¬0x80#8 ≤ n := by bv_omega
  simp only [exec, execOamdmaW, live_of_alive ha, page, if_false]
  rfl

/-- Settles O28: the bytes come from the page view at the resolved offset or from the free page, and `read_dmaOam`
places each. -/
theorem dmaCopiesThePageFromTheCursor : Obligations.DmaCopiesThePageFromTheCursor := by
  intro n s ha hs
  by_cases hn : 0x80 ≤ n.toNat
  · refine ⟨_, fun _ => ⟨exec_oamdmaW_view ha hn (getPagePtr_fixed hs hn), fun one ram hm k hk => ?_⟩, fun h => ?_⟩
    · have copied := read_dmaOam s.ppu.oamAddr
        (fun k => Memory.read s.cart.prg.cells (prgOffset s (n ++ 0#8) + k.toNat)) (BitVec.ofNat 8 k)
      have place : (BitVec.ofNat 8 k).toNat = k := Nat.mod_eq_of_lt hk
      rw [place] at copied
      rw [copied, prgOffset_fixed hm, fixedPrgOffset_toNat one (by rw [pageAddr_toNat]; omega), pageAddr_toNat]
    · omega
  · exact ⟨_, fun h => absurd h hn,
      fun h => ⟨exec_oamdmaW_cpuPage ha h, read_dmaOam s.ppu.oamAddr (Config.cpuPage s.draws n)⟩⟩

end Sys2Proof.Machine

/-! PROOF. The mapper and the PictureBus (R115 to R136). -/

namespace Sys2Proof.Machine

section Accesses
variable {s : State}

theorem busRead_of_ok (ha : s.Alive) {a : Addr} {d : Byte} (h : pbRead s a = .ok d) :
    busRead s a = .next { s with result := .byte d } := by
  rw [busRead, live_of_alive ha, h]
  rfl

theorem busWrite_of_ok (ha : s.Alive) {a : Addr} {b : Byte} {u : State} (h : pbWrite s a b = .ok u) :
    busWrite s a b = .next { u with result := .nothing } := by
  rw [busWrite, live_of_alive ha, h]
  rfl

theorem not_below_window {a : Addr} (h : 0x8000 ≤ a.toNat) : ¬a < 0x8000#16 := by bv_omega

/-- Settles O31: the fixed variant only records the write, and the address of the window is in the mapper's domain. -/
theorem prgWriteLeavesADiagnostic : Obligations.PrgWriteLeavesADiagnostic := by
  intro a b s ha hs
  obtain ⟨one, ram, hm⟩ := hs.mapper
  refine ⟨prgWindowAddr a, prgWindowAddr_toNat a, ?_⟩
  have written : writePRG s (prgWindowAddr a) b = .ok (diag s (.prgWriteIgnored (prgWindowAddr a) b)) := by
    rw [writePRG, if_neg (prgWindowAddr_inDomain a), hm]
  rw [exec, execPrgW, live_of_alive ha, written]
  rfl

theorem pattern_inDomain (a : BitVec 13) : ¬0x1FFF#16 < (0#3 ++ a : Addr) := by
  have := patternAddress_lt a
  bv_omega

theorem exec_pbPatR (ha : s.Alive) {a : BitVec 13} {d : Byte} (h : readCHR s (0#3 ++ a) = .ok d) :
    exec (.pbPatR a) s = .next { s with result := .byte d } :=
  busRead_of_ok ha ((pbRead_pattern (patternAddress_lt a)).trans h)

theorem exec_pbPatW (ha : s.Alive) {a : BitVec 13} {b : Byte} {u : State} (h : writeCHR s (0#3 ++ a) b = .ok u) :
    exec (.pbPatW a b) s = .next { u with result := .nothing } :=
  busWrite_of_ok ha ((pbWrite_pattern (patternAddress_lt a)).trans h)

/-- The CHR ROM of a fixed-mapping session without CHR RAM has the 8192 bytes of the pattern tables (R124). -/
theorem chr_size_of_fixed (hs : s.FixedSession) {one : Bool} (hm : s.mapper = .fixed one none) :
    s.cart.chr.size = 8192 := by
  unfold State.FixedSession at hs
  simp only [hm] at hs
  obtain ⟨-, -, -, size⟩ := hs
  exact size

theorem readCHR_rom (hs : s.FixedSession) {one : Bool} (hm : s.mapper = .fixed one none) (a : BitVec 13) :
    readCHR s (0#3 ++ a) = .ok (Memory.read s.cart.chr.cells a.toNat) := by
  rw [readCHR, if_neg (pattern_inDomain a), hm]
  dsimp only
  rw [romRead, patternAddress_toNat, chr_size_of_fixed hs hm, if_pos a.isLt]

theorem readCHR_ram {one : Bool} {ram : ByteMemory} (hm : s.mapper = .fixed one (some ram)) (a : BitVec 13) :
    readCHR s (0#3 ++ a) = .ok (Memory.read ram a.toNat) := by
  rw [readCHR, if_neg (pattern_inDomain a), hm, patternAddress_toNat]

theorem writeCHR_rom {one : Bool} (hm : s.mapper = .fixed one none) (a : BitVec 13) (b : Byte) :
    writeCHR s (0#3 ++ a) b = .ok (diag s (.chrWriteIgnored (0#3 ++ a) b)) := by
  rw [writeCHR, if_neg (pattern_inDomain a), hm]

theorem writeCHR_ram {one : Bool} {ram : ByteMemory} (hm : s.mapper = .fixed one (some ram)) (a : BitVec 13)
    (b : Byte) : writeCHR s (0#3 ++ a) b = .ok { s with mapper := .fixed one (some (Memory.write ram a.toNat b)) } := by
  rw [writeCHR, if_neg (pattern_inDomain a), hm, patternAddress_toNat]

/-- Settles O32: the address is in the pattern tables, so the mapper answers, from CHR ROM or from CHR RAM. -/
theorem patternAccessGoesToCharacterMemory : Obligations.PatternAccessGoesToCharacterMemory := by
  intro a b s ha hs
  refine ⟨fun one hm => ⟨exec_pbPatR ha (readCHR_rom hs hm a), 0#3 ++ a, patternAddress_toNat a,
    exec_pbPatW ha (writeCHR_rom hm a b)⟩, fun one ram hm => ⟨exec_pbPatR ha (readCHR_ram hm a), _,
    exec_pbPatW ha (writeCHR_ram hm a b), Memory.read_write_same _ _ _, fun k hk => Memory.read_write_other _ _ _ _ hk⟩⟩

end Accesses

section Nametables
variable {s : State}

/-- The nametable byte of an address by its number (R135). -/
theorem ntOffset_eq_ntIndex (m : Mirroring) (a : Addr) : ntOffset m a = ntIndex m a.toNat := by
  have table : (a.extractLsb' 10 2).toNat = a.toNat / 0x400 % 4 := by
    rw [BitVec.extractLsb'_toNat, Nat.shiftRight_eq_div_pow]
  have offset : (a.extractLsb' 0 10).toNat = a.toNat % 0x400 := by
    rw [BitVec.extractLsb'_toNat, Nat.shiftRight_zero]
  rw [ntOffset, table, offset]
  cases m <;> simp only [ntBase, ntIndex]
  · split <;> omega
  · split <;> omega

theorem exec_nametableRead (ha : s.Alive) {a : Addr} {A : Nat} (e : a.toNat = A) (lo : 0x2000 ≤ A) (hi : A < 0x3F00) :
    busRead s a = .next { s with result := .byte (Memory.read s.pb.ntRam (ntIndex s.cart.mirroring A)) } := by
  rw [busRead_of_ok ha (pbRead_nametable (by bv_omega) (by bv_omega)), ntOffset_eq_ntIndex, e]

/-- Settles O33: each of the five forms reads an address of the nametables, whose entry is `ntIndex` of its number. -/
theorem nametableReadsFollowTheMirroring : Obligations.NametableReadsFollowTheMirroring := by
  intro s ha
  refine ⟨fun a => ?_, fun a => ?_, fun a => ?_, fun a => ?_, fun a => ?_⟩ <;>
    exact exec_nametableRead ha (toNat_append_eq _ _) (by omega) (by omega)

theorem exec_nametableWrite (ha : s.Alive) {a : Addr} {A : Nat} (b : Byte) (e : a.toNat = A)
    (lo : 0x2000 ≤ A) (hi : A < 0x3F00) :
    ∃ N, busWrite s a b = .next { s with pb := { s.pb with ntRam := N }, result := .nothing }
      ∧ Memory.read N (ntIndex s.cart.mirroring A) = b
      ∧ ∀ k, k ≠ ntIndex s.cart.mirroring A → Memory.read N k = Memory.read s.pb.ntRam k := by
  refine ⟨Memory.write s.pb.ntRam (ntIndex s.cart.mirroring A) b, ?_, Memory.read_write_same _ _ _,
    fun k hk => Memory.read_write_other _ _ _ _ hk⟩
  rw [busWrite_of_ok ha (pbWrite_nametable (by bv_omega) (by bv_omega)), ntOffset_eq_ntIndex, e]

/-- Settles O34: each of the five forms writes an address of the nametables, and a write leaves every other entry. -/
theorem nametableWritesFollowTheMirroring : Obligations.NametableWritesFollowTheMirroring := by
  rintro i A b s ha (⟨a, rfl, rfl⟩ | ⟨a, rfl, rfl⟩ | ⟨a, rfl, rfl⟩ | ⟨a, rfl, rfl⟩ | ⟨a, rfl, rfl⟩) <;>
    exact exec_nametableWrite ha b (toNat_append_eq _ _) (by omega) (by omega)

end Nametables

section Palette
variable {s : State}

theorem palIndex_toNat (mode : PaletteAlias) (i : BitVec 5) : (palIndex mode i).toNat = paletteSlot mode i.toNat := by
  cases mode with
  | plain => rfl
  | hw =>
    revert i
    decide

theorem paletteEntry_eq (s : State) (a : Addr) : paletteEntry s a = paletteSlot s.par.paletteAlias (a.toNat % 32) := by
  rw [paletteEntry, palIndex_toNat, BitVec.extractLsb'_toNat, Nat.shiftRight_zero]

/-- Settles O35: the entry is `paletteSlot` of the address modulo 32, and the direct read's index is below 32. -/
theorem paletteAccessFollowsTheAliasing : Obligations.PaletteAccessFollowsTheAliasing := by
  intro a i b s ha
  have addr : (0x3F#8 ++ a : Addr).toNat = 0x3F00 + a.toNat := toNat_append_eq _ _
  have lo : 0x3F00#16 ≤ (0x3F#8 ++ a : Addr) := by bv_omega
  have hi : (0x3F#8 ++ a : Addr) < 0x4000#16 := by bv_omega
  have slot : (0x3F00 + a.toNat) % 32 = a.toNat % 32 := by omega
  refine ⟨?_, ?_, Memory.write s.pb.palette (paletteSlot s.par.paletteAlias (a.toNat % 32)) b, ?_,
    Memory.read_write_same _ _ _, fun k hk => Memory.read_write_other _ _ _ _ hk⟩
  · exact (busRead_of_ok ha (pbRead_palette lo hi)).trans (by rw [paletteEntry_eq, addr, slot])
  · have read : pbReadPalette s (0#11 ++ i)
        = .ok (Memory.read s.pb.palette (paletteSlot s.par.paletteAlias i.toNat)) := by
      have index : (0#11 ++ i : Addr) = i.setWidth 16 := by
        have := i.isLt
        apply BitVec.eq_of_toNat_eq
        rw [toNat_append_eq, BitVec.toNat_setWidth]
        simp only [BitVec.toNat_ofNat]
        omega
      rw [index, pbReadPalette_ok, palIndex_toNat]
    rw [exec, execPbRdpal, live_of_alive ha, read]
    rfl
  · exact (busWrite_of_ok ha (pbWrite_palette lo hi)).trans (by rw [paletteEntry_eq, addr, slot])

end Palette

section Contract
variable {s : State} {a : Addr}

theorem writePRG_outOfDomain (h : a.toNat < 0x8000) (b : Byte) : writePRG s a b = .error .mapperOutOfDomain :=
  if_pos h

theorem readPRG_outOfDomain (h : a.toNat < 0x8000) : readPRG s a = .error .mapperOutOfDomain := if_pos h

theorem getPagePtr_outOfDomain (h : a.toNat < 0x8000) : getPagePtr s a = .error .mapperOutOfDomain := if_pos h

theorem readCHR_outOfDomain (h : 0x1FFF < a.toNat) : readCHR s a = .error .mapperOutOfDomain := if_pos h

theorem writeCHR_outOfDomain (h : 0x1FFF < a.toNat) (b : Byte) : writeCHR s a b = .error .mapperOutOfDomain := if_pos h

theorem getPagePtr_outOfBounds (h : 0x8000 ≤ a.toNat) (passes : pageEnd s a < prgOffset s a + 256) :
    getPagePtr s a = .error .mapperOutOfBounds := by
  rw [getPagePtr, if_neg (not_below_window h), if_pos passes]

theorem getPagePtr_ok (h : 0x8000 ≤ a.toNat) (fits : prgOffset s a + 256 ≤ pageEnd s a) :
    getPagePtr s a = .ok fun k => Memory.read s.cart.prg.cells (prgOffset s a + k.toNat) := by
  rw [getPagePtr, if_neg (not_below_window h), if_neg (Nat.not_lt.mpr fits)]

theorem prgOffset_variant {n : Nat} {st : VariantState} (hm : s.mapper = .variant n st) (a : Addr) :
    prgOffset s a = (Config.mapperVariant n).prgOffset s.cart st a := by
  rw [prgOffset, hm]

/-- The page view of another variant's session passes an end or not, as the variant resolves the address (R117, R122).
-/
theorem pageEnd_variant_lt_iff {n : Nat} {st : VariantState} (hm : s.mapper = .variant n st) (a : Addr) :
    pageEnd s a < prgOffset s a + 256
      ↔ s.cart.prg.size < (Config.mapperVariant n).prgOffset s.cart st a + 256
        ∨ (Config.mapperVariant n).bankEnd s.cart st a < (Config.mapperVariant n).prgOffset s.cart st a + 256 := by
  rw [pageEnd_variant hm, prgOffset_variant hm, min_lt_iff]

/-- Settles O37: each domain check comes first, `MapperFrame` is what a write keeps, and the page view compares the
resolved offset with the two ends. -/
theorem mapperKeepsItsContract : Obligations.MapperKeepsItsContract := by
  intro s a b
  refine ⟨fun h => ⟨readPRG_outOfDomain h, writePRG_outOfDomain h b, getPagePtr_outOfDomain h⟩,
    fun h => ⟨readCHR_outOfDomain h, writeCHR_outOfDomain h b⟩, fun t h => ?_, fun n st hm ha =>
    ⟨execPrgR_variant ha hm, execPbPatR_variant ha hm, fun h => ?_⟩⟩
  · have f : MapperFrame s t := h.elim writePRG_frame writeCHR_frame
    exact ⟨f.ppu, f.pb, f.ctrl1, f.ctrl2, f.cart, f.par, f.nmi, f.faulted, f.refused⟩
  · intro offset
    split
    next passes => exact getPagePtr_outOfBounds h ((pageEnd_variant_lt_iff hm a).mpr passes)
    next fits =>
      rw [← pageEnd_variant_lt_iff hm a, not_lt] at fits
      exact ⟨_, getPagePtr_ok h fits, fun k => by rw [prgOffset_variant hm]⟩

/-- Settles O60: a page of `0x80` or above is an address of the PRG window, so the page view decides between the fault
and the copy. -/
theorem variantDmaFollowsThePageView : Obligations.VariantDmaFollowsThePageView := by
  intro s n st page ha hm hp a offset
  have window : 0x8000 ≤ a.toNat := by rw [pageAddr_toNat]; omega
  split
  next passes =>
    have fault := getPagePtr_outOfBounds window ((pageEnd_variant_lt_iff hm a).mpr passes)
    have high : 0x80#8 ≤ page := hp
    simp only [exec, execOamdmaW, live_of_alive ha, high, if_true]
    rw [fault]
  next fits =>
    rw [← pageEnd_variant_lt_iff hm a, not_lt] at fits
    refine ⟨_, exec_oamdmaW_view ha hp (getPagePtr_ok window fits), fun k => ?_⟩
    rw [read_dmaOam, prgOffset_variant hm]

/-- The end that a page view of the fixed variant must not pass, as a number (R130, D33). -/
theorem pageEnd_fixed (hs : s.FixedSession) {one : Bool} {ram : Option ByteMemory} (hm : s.mapper = .fixed one ram)
    (h : 0x8000 ≤ a.toNat) :
    pageEnd s a = if s.par.pageViewEnd = .bank ∧ prgOffset s a < 0x4000 then 0x4000 else s.cart.prg.size := by
  have inside := prgOffset_lt hs (a := a) h
  have size : s.cart.prg.size = 16384 ∨ s.cart.prg.size = 32768 := by
    unfold State.FixedSession at hs
    simp only [hm] at hs
    obtain ⟨-, ⟨-, size⟩ | ⟨-, size⟩, -⟩ := hs
    · exact .inl size
    · exact .inr size
  simp only [pageEnd, hm]
  cases s.par.pageViewEnd with
  | bank =>
    simp only [fixedBankEnd, prgBankSize, true_and]
    split <;> omega
  | buffer => simp

/-- Settles O38: with the offset and the end written as numbers, `getPagePtr` is its one comparison. -/
theorem pageViewIsBoundsChecked : Obligations.PageViewIsBoundsChecked := by
  intro s a one ram hs hm h offset limit
  have resolved : prgOffset s a = offset := (prgOffset_fixed hm a).trans (fixedPrgOffset_toNat one h)
  have ends : pageEnd s a = limit := by rw [pageEnd_fixed hs hm h, resolved]
  rw [← resolved, ← ends]
  exact ⟨fun passes => getPagePtr_outOfBounds h passes, fun fits => ⟨_, getPagePtr_ok h fits, fun _ => rfl⟩⟩

end Contract

section VariantWrites
variable {s : State} {n : Nat} {st : VariantState} {b : Byte}

theorem honouredWrite_variantWrite (ha : s.Alive) {w : Option VariantWrite} {o : Outcome}
    (h : o = finishOr (variantWrite s n st w b) fun _ => .nothing) : HonouredWrite s n st w b o := by
  subst h
  have honoured (st' : VariantState) :
      (∀ a, exec (.prgR a) { s with mapper := .variant n st', result := .nothing }
          = prgReadOutcome { s with mapper := .variant n st', result := .nothing } n st' a)
        ∧ ∀ a, exec (.pbPatR a) { s with mapper := .variant n st', result := .nothing }
          = chrReadOutcome { s with mapper := .variant n st', result := .nothing } n st' a :=
    ⟨execPrgR_variant ha rfl, execPbPatR_variant ha rfl⟩
  rcases w with _ | ⟨banks, _ | k⟩
  · rfl
  · refine ⟨nofun, fun _ => ⟨_, _, rfl, rfl, rfl, nofun, fun _ _ => rfl, honoured _⟩⟩
  · by_cases fits : k < chrRamSize
    · have written : variantWrite s n st (some ⟨banks, some k⟩) b
          = .ok { s with mapper := .variant n { banks := banks, chrRam := Memory.write st.chrRam k b } } := if_pos fits
      rw [written]
      refine ⟨?_, fun _ => ⟨_, _, rfl, rfl, rfl, ?_, ?_, honoured _⟩⟩
      · rintro ⟨_, ⟨⟩, past⟩
        exact absurd fits (Nat.not_lt.mpr past)
      · rintro _ ⟨⟩
        exact Memory.read_write_same _ _ _
      · intro j hj
        exact Memory.read_write_other _ _ _ _ fun e => hj (by rw [e])
    · have faults : variantWrite s n st (some ⟨banks, some k⟩) b = .error .mapperOutOfBounds := if_neg fits
      rw [faults]
      exact ⟨fun _ => rfl, fun within => absurd (within k rfl) fits⟩

theorem writePRG_variant (hm : s.mapper = .variant n st) (a : BitVec 15) : writePRG s (prgWindowAddr a) b
    = variantWrite s n st ((Config.mapperVariant n).writePRG s.cart st (prgWindowAddr a) b) b := by
  rw [writePRG, if_neg (prgWindowAddr_inDomain a), hm]

theorem writeCHR_variant (hm : s.mapper = .variant n st) (a : BitVec 13) : writeCHR s (0#3 ++ a) b
    = variantWrite s n st ((Config.mapperVariant n).writeCHR s.cart st (0#3 ++ a) b) b := by
  rw [writeCHR, if_neg (pattern_inDomain a), hm]

/-- Settles O59: both writes are a `variantWrite` of what the variant answers, and the next state's mapper is the new
one. -/
theorem variantWritesAreHonoured : Obligations.VariantWritesAreHonoured := by
  intro s n st b ha hm
  refine ⟨fun a => honouredWrite_variantWrite ha ?_, fun a => honouredWrite_variantWrite ha ?_⟩
  · rw [exec, execPrgW, live_of_alive ha, writePRG_variant hm]
  · rw [exec, execPbPatW, busWrite, live_of_alive ha, pbWrite_pattern (patternAddress_lt a), writeCHR_variant hm]

end VariantWrites

end Sys2Proof.Machine

/-! PROOF. The controllers (R137 to R141) and the host calls (R116, R124, R156 to R159). -/

namespace Sys2Proof.Machine

section Controllers
variable {s t : State} (c : Controller)

/-- Bit `k` of a byte, as a number. -/
theorem bit_toNat (b : Byte) (k : Nat) : (b.getLsbD k).toNat = b.toNat / 2 ^ k % 2 := by
  rw [← BitVec.testBit_toNat, Nat.toNat_testBit]

theorem lowBit_eq_decide (b : Byte) : b.getLsbD 0 = decide (b.toNat % 2 = 1) := by
  rw [← BitVec.testBit_toNat, Nat.testBit_zero]

/-- The byte of one bit (R139, D37). -/
theorem bitByte_eq (b : Bool) : (BitVec.ofBool b).setWidth 8 = BitVec.ofNat 8 b.toNat := by
  cases b <;> rfl

theorem lowBit_byte (b : Byte) : (BitVec.ofBool (b.getLsbD 0)).setWidth 8 = BitVec.ofNat 8 (b.toNat % 2) := by
  rw [bitByte_eq, bit_toNat, Nat.pow_zero, Nat.div_one]

theorem serialByte_strobing {c : Controller} (h : c.isStrobe = true) :
    serialByte c = BitVec.ofNat 8 (c.buttons.toNat % 2) := by
  rw [serialByte, if_pos h, lowBit_byte]

theorem serialByte_shifting {c : Controller} (h : c.isStrobe = false) :
    serialByte c = BitVec.ofNat 8 (c.bits.toNat % 2) := by
  rw [serialByte, if_neg (by simp [h]), lowBit_byte]

theorem serialShift_strobing {c : Controller} (h : c.isStrobe = true) :
    serialShift c = { c with bits := c.buttons } := by
  rw [serialShift, if_pos h]

theorem serialShift_shifting {c : Controller} (h : c.isStrobe = false) :
    serialShift c = { c with bits := (c.bits >>> 1) ||| 0x80#8 } := by
  rw [serialShift, if_neg (by simp [h])]

theorem shiftedIn_toNat (b : Byte) : ((b >>> 1) ||| 0x80#8).toNat = b.toNat / 2 + 128 := by
  have split : ((b >>> 1) ||| 0x80#8) = 1#1 ++ b.extractLsb' 1 7 := by
    refine BitVec.eq_of_getLsbD_eq fun k hk => ?_
    simp only [BitVec.getLsbD_append]
    interval_cases k <;> simp
  rw [split, toNat_append_eq, BitVec.extractLsb'_toNat, Nat.shiftRight_eq_div_pow]
  simp only [BitVec.toNat_ofNat]
  omega

theorem exec_ctrl1R (ha : s.Alive) : exec .ctrl1R s
    = .next { s with ctrl1 := serialShift s.ctrl1, result := .byte (serialByte s.ctrl1) } := live_of_alive ha

theorem exec_ctrl2R (ha : s.Alive) : exec .ctrl2R s
    = .next { s with ctrl2 := serialShift s.ctrl2, result := .byte (serialByte s.ctrl2) } := live_of_alive ha

theorem exec_ctrlStrobeW (ha : s.Alive) (b : Byte) : exec (.ctrlStrobeW b) s
    = .next { s with ctrl1 := strobe s.ctrl1 b, ctrl2 := strobe s.ctrl2 b, result := .nothing } := live_of_alive ha

/-- What a strobe write leaves of one controller (R138). -/
theorem strobe_fields (b : Byte) :
    (strobe c b).buttons = c.buttons ∧ ((strobe c b).isStrobe = true ↔ b.toNat % 2 = 1)
      ∧ (c.isStrobe = true ∧ b.toNat % 2 = 0 → (strobe c b).bits = c.buttons)
      ∧ (¬(c.isStrobe = true ∧ b.toNat % 2 = 0) → (strobe c b).bits = c.bits) := by
  have held : (strobe c b).isStrobe = decide (b.toNat % 2 = 1) := lowBit_eq_decide b
  have bits : (strobe c b).bits = if c.isStrobe && !decide (b.toNat % 2 = 1) then c.buttons else c.bits := by
    rw [← lowBit_eq_decide]
    rfl
  exact ⟨rfl, by simp [held], fun ⟨was, clear⟩ => by simp [bits, was, clear],
    fun no => bits.trans (if_neg (by simpa using no))⟩

/-- Settles O39: `strobe_fields` says what a strobe write does to one controller; it does it to both. -/
theorem strobeLatchesAtTheTransition : Obligations.StrobeLatchesAtTheTransition := by
  intro b s ha
  obtain ⟨buttons1, held1, latched1, kept1⟩ := strobe_fields s.ctrl1 b
  obtain ⟨buttons2, held2, latched2, kept2⟩ := strobe_fields s.ctrl2 b
  exact ⟨live_of_alive ha, live_of_alive ha, _, _, exec_ctrlStrobeW ha b, buttons1, buttons2, held1, held2,
    latched1, kept1, latched2, kept2⟩

/-- Settles O40: the byte and the shift have one equation with the strobe held and one with it released. -/
theorem controllerReadShiftsOneBit : Obligations.ControllerReadShiftsOneBit := by
  intro s ha
  refine ⟨fun h => ?_, fun h => ⟨_, ?_, shiftedIn_toNat _⟩, fun h => ?_, fun h => ⟨_, ?_, shiftedIn_toNat _⟩⟩
  · rw [exec_ctrl1R ha, serialByte_strobing h, serialShift_strobing h]
  · rw [exec_ctrl1R ha, serialByte_shifting h, serialShift_shifting h]
  · rw [exec_ctrl2R ha, serialByte_strobing h, serialShift_strobing h]
  · rw [exec_ctrl2R ha, serialByte_shifting h, serialShift_shifting h]

/-- One more call at the end of a run of calls. -/
theorem repeated_succ {i : Instr} {k : Nat} (h : repeated i k s = .next t) : repeated i (k + 1) s = exec i t := by
  induction k generalizing s with
  | zero =>
    obtain rfl : s = t := by simpa [repeated] using h
    cases hs : exec i s <;> simp [repeated, hs]
  | succ k ih =>
    rw [repeated] at h ⊢
    cases hs : exec i s with
    | next u =>
      rw [hs] at h
      exact ih h
    | fault f => simp [hs] at h
    | refused r => simp [hs] at h

/-- The controller after `k` reads. -/
theorem repeated_ctrl1R (ha : s.Alive) (k : Nat) :
    ∃ r, repeated .ctrl1R k s = .next { s with ctrl1 := serialShift^[k] s.ctrl1, result := r } := by
  induction k with
  | zero => exact ⟨s.result, rfl⟩
  | succ k ih =>
    obtain ⟨r, hr⟩ := ih
    rw [repeated_succ hr, exec_ctrl1R (by exact ha), Function.iterate_succ_apply']
    exact ⟨_, rfl⟩

theorem repeated_ctrl2R (ha : s.Alive) (k : Nat) :
    ∃ r, repeated .ctrl2R k s = .next { s with ctrl2 := serialShift^[k] s.ctrl2, result := r } := by
  induction k with
  | zero => exact ⟨s.result, rfl⟩
  | succ k ih =>
    obtain ⟨r, hr⟩ := ih
    rw [repeated_succ hr, exec_ctrl2R (by exact ha), Function.iterate_succ_apply']
    exact ⟨_, rfl⟩

theorem iterate_serialShift_kept (k : Nat) :
    (serialShift^[k] c).isStrobe = c.isStrobe ∧ (serialShift^[k] c).buttons = c.buttons := by
  induction k with
  | zero => exact ⟨rfl, rfl⟩
  | succ k ih =>
    rw [Function.iterate_succ_apply']
    exact ih

theorem shiftedIn_getLsbD (b : Byte) {j : Nat} (hj : j < 8) :
    ((b >>> 1) ||| 0x80#8).getLsbD j = if j = 7 then true else b.getLsbD (j + 1) := by
  interval_cases j <;> simp

/-- After the release, `k` reads leave the bits from bit `k` on, with ones above them (R141). -/
theorem iterate_serialShift_getLsbD {c : Controller} (h : c.isStrobe = false) (k : Nat) {j : Nat} (hj : j < 8) :
    (serialShift^[k] c).bits.getLsbD j = if j + k < 8 then c.bits.getLsbD (j + k) else true := by
  induction k generalizing j with
  | zero => simp [hj]
  | succ k ih =>
    have released : (serialShift^[k] c).isStrobe = false := (iterate_serialShift_kept c k).1.trans h
    rw [Function.iterate_succ_apply', serialShift_shifting released]
    dsimp only
    rw [shiftedIn_getLsbD _ hj]
    by_cases h7 : j = 7
    · rw [if_pos h7, if_neg (by omega)]
    · rw [if_neg h7, ih (by omega)]
      simp only [Nat.add_assoc, Nat.add_comm 1 k]

/-- Read number `k + 1` after the release (R141). -/
theorem serialByte_released {c : Controller} (h : c.isStrobe = false) (k : Nat) :
    serialByte (serialShift^[k] c) = BitVec.ofNat 8 (if k < 8 then c.bits.toNat / 2 ^ k % 2 else 1) := by
  have released : (serialShift^[k] c).isStrobe = false := (iterate_serialShift_kept c k).1.trans h
  rw [serialByte, if_neg (by simp [released]), bitByte_eq, iterate_serialShift_getLsbD h k (by omega), Nat.zero_add]
  split
  · rw [bit_toNat]
  · rfl

/-- Read number `k + 1` while the strobe is held (R141). -/
theorem serialByte_held {c : Controller} (h : c.isStrobe = true) (k : Nat) :
    serialByte (serialShift^[k] c) = BitVec.ofNat 8 (c.buttons.toNat % 2) := by
  obtain ⟨held, buttons⟩ := iterate_serialShift_kept c k
  rw [serialByte_strobing (held.trans h), buttons]

theorem strobe_release {c : Controller} {b : Byte} (h : c.isStrobe = true) (hb : b.toNat % 2 = 0) :
    (strobe c b).isStrobe = false ∧ (strobe c b).bits = c.buttons := by
  obtain ⟨-, held, latched, -⟩ := strobe_fields c b
  exact ⟨by rw [← Bool.not_eq_true, held]; omega, latched ⟨h, hb⟩⟩

/-- Settles O41: `k` reads are `k` shifts, which keep a held controller's answer and move a released one's bits down
with ones behind them. -/
theorem readsAfterTheLatchGiveTheButtons : Obligations.ReadsAfterTheLatchGiveTheButtons := by
  intro s b k ha
  have alive (c d : Controller) (r : OpResult) : State.Alive { s with ctrl1 := c, ctrl2 := d, result := r } := ha
  refine ⟨fun h => ?_, fun h => ?_, fun h hb => ?_, fun h hb => ?_, fun t h => ?_⟩
  · obtain ⟨r, hr⟩ := repeated_ctrl1R ha k
    exact ⟨_, _, hr, exec_ctrl1R (alive _ _ _), congrArg OpResult.byte (serialByte_held h k)⟩
  · obtain ⟨r, hr⟩ := repeated_ctrl2R ha k
    exact ⟨_, _, hr, exec_ctrl2R (alive _ _ _), congrArg OpResult.byte (serialByte_held h k)⟩
  · obtain ⟨released, latched⟩ := strobe_release h hb
    obtain ⟨r, hr⟩ := repeated_ctrl1R (alive (strobe s.ctrl1 b) (strobe s.ctrl2 b) .nothing) k
    exact ⟨_, _, _, exec_ctrlStrobeW ha b, hr, exec_ctrl1R (alive _ _ _),
      congrArg OpResult.byte (by rw [serialByte_released released, latched])⟩
  · obtain ⟨released, latched⟩ := strobe_release h hb
    obtain ⟨r, hr⟩ := repeated_ctrl2R (alive (strobe s.ctrl1 b) (strobe s.ctrl2 b) .nothing) k
    exact ⟨_, _, _, exec_ctrlStrobeW ha b, hr, exec_ctrl2R (alive _ _ _),
      congrArg OpResult.byte (by rw [serialByte_released released, latched])⟩
  · obtain ⟨-, p, -, ⟨-, rfl⟩ | ⟨-, rfl⟩⟩ := execCycle_next h
    · exact ⟨rfl, rfl⟩
    · exact ⟨rfl, rfl⟩

end Controllers

section HostCalls

/-- Settles O42: a reset of a live session is `resetPpu`, whose fields are the stated ones by definition. -/
theorem resetSetsTheScalarsOnly : Obligations.ResetSetsTheScalarsOnly := fun _ ha => live_of_alive ha

/-- Settles O43: the two cases are the two branches of the readout. -/
theorem frameBufferReadout : Obligations.FrameBufferReadout := by
  intro x y s ha
  refine ⟨fun inside => ?_, fun outside => ?_⟩
  · rw [exec, execFbread, live_of_alive ha, if_neg (by omega)]
    rfl
  · rw [exec, execFbread, live_of_alive ha, if_pos outside, refuse_eq_refusedState]

variable {cart : Cart} {par : Params} {init : Init}

theorem constructMapper_fixed (h : cart.mapperNumber = 0) :
    constructMapper cart par init = constructFixed cart par init := if_pos h

theorem constructMapper_unsupported (h0 : cart.mapperNumber ≠ 0) (h : cart.mapperNumber ∉ par.mapperNumbers) :
    constructMapper cart par init = .error .unsupportedMapper := by
  rw [constructMapper, if_neg h0, variantOf_not_mem h]

theorem constructMapper_variant (h0 : cart.mapperNumber ≠ 0) (h : cart.mapperNumber ∈ par.mapperNumbers) :
    constructMapper cart par init =
      ((Config.mapperVariant cart.mapperNumber).init cart (Memory.read init.chrRam)).map fun v =>
        .variant cart.mapperNumber (firstVariantState v) := by
  rw [constructMapper, if_neg h0, variantOf_mem h]
  dsimp only
  cases (Config.mapperVariant cart.mapperNumber).init cart (Memory.read init.chrRam) <;> rfl

/-- Settles O44: the mapper number and the parameters decide the branch of `constructMapper`, and each branch has its
equation. -/
theorem constructionOfTheMapper : Obligations.ConstructionOfTheMapper := by
  intro cart par init
  refine ⟨fun h0 h1 h2 => ?_, fun h0 hp => ⟨fun hc hr => ?_, fun hc hr => ?_, fun hc hs => ?_, fun hc hs => ?_⟩,
    constructMapper_unsupported, fun h0 colors => constructMapper_unsupported h0 nofun, fun h0 h => ?_, fun r h => ?_⟩
  · rw [constructMapper_fixed h0, constructFixed, if_pos ⟨h1, h2⟩]
  · rw [constructMapper_fixed h0, constructFixed, if_neg (by omega), if_pos hc, hr]
  · rw [constructMapper_fixed h0, constructFixed, if_neg (by omega), if_pos hc, hr]
  · rw [constructMapper_fixed h0, constructFixed, if_neg (by omega), if_neg (by simp [hc]), if_pos hs]
  · rw [constructMapper_fixed h0, constructFixed, if_neg (by omega), if_neg (by simp [hc]), if_neg (by simp [hs])]
  · rw [constructMapper_variant h0 h]
    cases (Config.mapperVariant cart.mapperNumber).init cart (Memory.read init.chrRam) with
    | error r => rfl
    | ok v =>
      have banks := firstVariantState_banks v
      have read : ∀ k, k < 8192 → Memory.read (firstVariantState v).chrRam k = v.chrRam k :=
        fun _ => firstVariantState_read v
      dsimp only [Except.map]
      generalize firstVariantState v = new at banks read ⊢
      exact ⟨new.chrRam, banks ▸ rfl, read⟩
  · rw [construct, h]

end HostCalls

end Sys2Proof.Machine

/-! PROOF. Construction and reset meet the invariant (R116, R124, R158). -/

namespace Sys2Proof.Machine

section Construction
variable {cart : Cart} {par : Params} {init : Init} {m : Mapper} {s : State}

/-- The mapper of a new session (R116, R124): that of the fixed mapping, in one of its two PRG sizes and with the CHR
memory of the cartridge, or that of a variant of the parameters in the state its `init` supplies. -/
theorem constructMapper_ok (h : constructMapper cart par init = .ok m) :
    (cart.mapperNumber = 0 ∧ (cart.prg.size = 16384 ∨ cart.prg.size = 32768)
        ∧ ((cart.chrIsRam = true ∧ par.chrRamFixed = .ram8k
              ∧ m = .fixed (decide (cart.prg.size = 16384)) (some init.chrRam))
          ∨ (cart.chrIsRam = false ∧ cart.chr.size = 8192 ∧ m = .fixed (decide (cart.prg.size = 16384)) none)))
      ∨ (cart.mapperNumber ≠ 0 ∧ cart.mapperNumber ∈ par.mapperNumbers
        ∧ ∃ v, m = .variant cart.mapperNumber (firstVariantState v)) := by
  by_cases h0 : cart.mapperNumber = 0
  · rw [constructMapper_fixed h0, constructFixed] at h
    split at h
    · cases h
    next size =>
      refine .inl ⟨h0, by omega, ?_⟩
      split at h
      next ram =>
        split at h
        · cases h
        next accepted => exact .inl ⟨ram, accepted, (Except.ok.inj h).symm⟩
      next rom =>
        split at h
        · cases h
        next chr => exact .inr ⟨by simpa using rom, by simpa using chr, (Except.ok.inj h).symm⟩
  · by_cases hn : cart.mapperNumber ∈ par.mapperNumbers
    · rw [constructMapper_variant h0 hn] at h
      cases hv : (Config.mapperVariant cart.mapperNumber).init cart (Memory.read init.chrRam) with
      | error r => simp [hv, Except.map] at h
      | ok v =>
        rw [hv] at h
        exact .inr ⟨h0, hn, v, (Except.ok.inj h).symm⟩
    · rw [constructMapper_unsupported h0 hn] at h
      cases h

/-- A new session is of a kind that construction gives, and its CHR RAM is in canonical form. -/
theorem constructMapper_session (h : constructMapper cart par init = .ok s.mapper)
    (hc : s.cart = cart) (hp : s.par = par) (ram : Memory.wf 8192 init.chrRam) :
    s.SessionOk ∧ Memory.wf chrRamSize s.chrRamCells := by
  subst hc hp
  unfold State.SessionOk State.FixedSession State.chrRamCells
  obtain ⟨number, size, ⟨isRam, accepted, hm⟩ | ⟨isRom, chr, hm⟩⟩ | ⟨number, mem, v, hm⟩ := constructMapper_ok h
  · rw [hm]
    exact ⟨⟨number, by simpa using by omega, isRam, accepted⟩, ram⟩
  · rw [hm]
    exact ⟨⟨number, by simpa using by omega, isRom, chr⟩, Memory.wf_nil⟩
  · rw [hm]
    exact ⟨⟨number, rfl, mem⟩, firstVariantState_wf v⟩

/-- The state of a new session (R158), on its mapper. -/
def newSession (cart : Cart) (par : Params) (init : Init) (m : Mapper) : State where
  ppu := resetPpu par { Ppu.powerOn with oam := init.oam, readBuffer := init.readBuffer, fb := init.fb }
  pb := { ntRam := init.ntRam, palette := init.palette }
  mapper := m
  ctrl1 := Controller.powerOn
  ctrl2 := Controller.powerOn
  out := OutRecords.powerOn
  cart := cart
  par := par
  schedule := []
  result := .nothing
  draws := 0

theorem construct_eq : construct cart par init = (constructMapper cart par init).map (newSession cart par init) := by
  unfold construct
  cases constructMapper cart par init <;> rfl

/-- A reset leaves the first dot of the pre-render line and an empty sprite list (R159). -/
theorem resetPpu_legal (par : Params) (p : Ppu) : (resetPpu par p).PositionOk ∧ (resetPpu par p).SpritesOk :=
  ⟨⟨by rw [resetPpu_dot]; decide, rfl⟩, by simp, List.Pairwise.nil⟩

/-- `State.reset` is the session of log 4's cartridge and log 3's contents. -/
theorem construct_reset : construct Cart.c16 (Params.defaults Config.colorTable) Init.zero = .ok State.reset := rfl

/-- Settles O45: a new session is `newSession` on the mapper that was built, so its PPU is a reset one and its
memories are the initial contents; the kind of session and CHR RAM are `constructMapper_session`'s. -/
theorem constructionMeetsTheInvariant : Obligations.ConstructionMeetsTheInvariant := by
  refine ⟨fun cart par init s h oam fb nt pal chrRam prg chr => ?_, construct_reset⟩
  rw [construct_eq] at h
  cases hm : constructMapper cart par init with
  | error r => simp [hm, Except.map] at h
  | ok m =>
    rw [hm] at h
    obtain rfl := Except.ok.inj h
    obtain ⟨session, cells⟩ := constructMapper_session (s := newSession cart par init m) hm rfl rfl chrRam
    obtain ⟨position, sprites⟩ := resetPpu_legal par
      { Ppu.powerOn with oam := init.oam, readBuffer := init.readBuffer, fb := init.fb }
    exact ⟨⟨position, sprites, ⟨oam, fb, nt, pal, cells, prg, chr⟩, session⟩, ⟨rfl, rfl⟩, rfl, rfl, rfl, rfl,
      rfl, rfl, rfl⟩

/-- Settles O8: `State.reset` is the session that construction gives on log 4's cartridge and log 3's empty memories, so
O45 gives the invariant; the values are the definition's. -/
theorem resetMeetsTheInvariant : Obligations.ResetMeetsTheInvariant := by
  have empty : ∀ y : Fin 240, Memory.wf 256 Init.zero.fb[y] := fun y => by
    simp only [Init.zero, Fin.getElem_fin, Vector.getElem_replicate]
    exact Memory.wf_nil
  obtain ⟨inv, successful, -⟩ := constructionMeetsTheInvariant.1 _ _ _ _ construct_reset Memory.wf_nil empty
    Memory.wf_nil Memory.wf_nil Memory.wf_nil Memory.wf_nil Memory.wf_nil
  obtain ⟨-, -, -, session⟩ := id inv
  exact ⟨inv, session, successful, rfl, rfl, rfl, rfl⟩

end Construction

end Sys2Proof.Machine

/-! PROOF. The dots of `cycle()`, each line's action and its move (R87, R94, R102 to R104), and the scroll steps (R98,
R100, R101). -/

namespace Sys2Proof.Machine

section DotOutcome
variable {s : State} {p : Ppu}

/-- A dot without the interrupt signal changes the PPU alone. -/
theorem exec_cycle_silent (ha : s.Alive) (silent : emitsInterrupt s.ppu = false) (h : dotStep s = .ok p) :
    exec .cycle s = .next { s with ppu := p, result := .nothing } := by
  simp [exec, execCycle, live_of_alive ha, h, silent, finish]

/-- A dot that emits the interrupt signal counts it and gives it back (R146). -/
theorem exec_cycle_interrupt (ha : s.Alive) (emits : emitsInterrupt s.ppu = true) (h : dotStep s = .ok p) :
    exec .cycle s
      = .next { s with ppu := p, out := { s.out with nmiCount := s.out.nmiCount + 1 }, result := .interrupt } := by
  simp [exec, execCycle, live_of_alive ha, h, emits, finish, emitNmi]

/-- Settles O46: in a fixed-mapping session the dot does not fault (`dotStep_fixed`), and it writes no field of
`CycleFrame`. -/
theorem cycleAlwaysCompletes : Obligations.CycleAlwaysCompletes := by
  intro s ha hs
  obtain ⟨p, hp⟩ := dotStep_fixed hs
  have f := dotStep_frame hp
  have frame := And.intro f.t <| And.intro f.fineX <| And.intro f.firstWrite <| And.intro f.generateInterrupt <|
    And.intro f.longSprites <| And.intro f.bgPage <| And.intro f.sprPage <| And.intro f.increment <|
    And.intro f.greyscale <| And.intro f.showBackground <| And.intro f.showSprites <| And.intro f.hideEdgeBackground <|
    And.intro f.hideEdgeSprites <| And.intro f.oam <| And.intro f.oamAddr f.readBuffer
  cases emits : emitsInterrupt s.ppu with
  | true => exact ⟨p, _, _, exec_cycle_interrupt ha emits hp, .inr ⟨rfl, rfl⟩, frame⟩
  | false => exact ⟨p, _, _, exec_cycle_silent ha emits hp, .inl ⟨rfl, rfl⟩, frame⟩

theorem dotStep_postRender (hp : s.ppu.phase = .postRender) : dotStep s = .ok (postRenderDot s.par s.ppu) := by
  simp only [dotStep, hp]

theorem dotStep_verticalBlank (hp : s.ppu.phase = .verticalBlank) : dotStep s = .ok (vblankDot s.par s.ppu) := by
  simp only [dotStep, hp]

/-- A VerticalBlank dot that is not the start of vertical blank. -/
theorem vblankDot_of_not_start (start : vblankStarts p = false) (par : Params) :
    vblankDot par p
      = if p.dot = 340#9 then { vblankLineEnd p with dot := lineStart par } else { p with dot := p.dot + 1#9 } := by
  simp only [vblankDot, start, Bool.false_eq_true, if_false]
  rfl

/-- Settles O50: PostRender dots act only at the end of their line; VerticalBlank dots also at the start of vertical
blank, the only dot that can emit the signal. -/
theorem postRenderAndVblankDots : Obligations.PostRenderAndVblankDots := by
  intro s ha
  refine ⟨fun hp => ?_, fun hp => ?_⟩
  · have step := exec_cycle_of_dotStep ha (by simp [hp]) (dotStep_postRender hp)
    rw [step, postRenderDot]
    exact ⟨fun h340 => by rw [if_pos h340]; rfl, fun h340 => by rw [if_neg h340]; rfl⟩
  · have dot := dotStep_verticalBlank hp
    have silent (h : vblankStarts s.ppu = false) :
        exec .cycle s = .next { s with
          ppu := if s.ppu.dot = 340#9 then { vblankLineEnd s.ppu with dot := lineStart s.par }
            else { s.ppu with dot := s.ppu.dot + 1#9 }
          result := .nothing } := by
      rw [← vblankDot_of_not_start h]
      exact exec_cycle_silent ha (by simp [emitsInterrupt, h]) dot
    have last : s.ppu.scanline + 1#9 = 261#9 ↔ s.ppu.scanline = 260#9 := by bv_omega
    have start (hl : s.ppu.scanline = 241#9) (hd : s.ppu.dot = 1#9) :
        vblankDot s.par s.ppu = { s.ppu with dot := 2#9, vblank := true } := by
      simp [vblankDot, vblankStarts, hl, hd, setVblank, advance_withinLine]
    refine ⟨fun hl hd hg => ?_, fun hl hd hg => ?_, fun hd hl => ?_, fun hd hl => ?_, fun hd away => ?_⟩
    · rw [exec_cycle_interrupt ha (by simp [emitsInterrupt, vblankStarts, hp, hl, hd, hg]) dot, start hl hd]
    · rw [exec_cycle_silent ha (by simp [emitsInterrupt, hg]) dot, start hl hd]
    · rw [silent (by simp [vblankStarts, hd]), if_pos hd, vblankLineEnd, if_pos (last.mpr hl)]
    · rw [silent (by simp [vblankStarts, hd]), if_pos hd, vblankLineEnd, if_neg (last.not.mpr hl)]
    · rw [silent (by simpa [vblankStarts] using away), if_neg hd]

end DotOutcome

section Scroll
variable {v t : BitVec 15}

theorem extract_eq_of_bits {x y : BitVec 15} {start len : Nat}
    (h : ∀ k, start ≤ k → k < start + len → x.getLsbD k = y.getLsbD k) :
    x.extractLsb' start len = y.extractLsb' start len := by
  refine BitVec.eq_of_getLsbD_eq fun k hk => ?_
  simp only [BitVec.getLsbD_extractLsb', hk, h (start + k) (by omega) (by omega)]

/-- A masked copy takes the bits of the mask from the source and keeps the others. -/
theorem getLsbD_masked_copy (mask : BitVec 15) {k : Nat} (hk : k < 15) :
    ((v &&& ~~~mask) ||| (t &&& mask)).getLsbD k = if mask.getLsbD k then t.getLsbD k else v.getLsbD k := by
  simp only [BitVec.getLsbD_or, BitVec.getLsbD_and, BitVec.getLsbD_not, hk, decide_true, Bool.true_and]
  cases mask.getLsbD k <;> simp

/-- A field under the mask is copied. -/
theorem extract_masked_copy_of_ones {mask : BitVec 15} {start len : Nat} (hl : start + len ≤ 15)
    (h : mask.extractLsb' start len = BitVec.allOnes len) :
    ((v &&& ~~~mask) ||| (t &&& mask)).extractLsb' start len = t.extractLsb' start len := by
  refine extract_eq_of_bits fun k lo hi => ?_
  have bit := congrArg (·.getLsbD (k - start)) h
  simp only [BitVec.getLsbD_extractLsb', BitVec.getLsbD_allOnes, Nat.add_sub_cancel' lo] at bit
  rw [getLsbD_masked_copy mask (by omega), if_pos (by simpa [show k - start < len by omega] using bit)]

/-- A field outside the mask is kept. -/
theorem extract_masked_copy_of_zero {mask : BitVec 15} {start len : Nat} (hl : start + len ≤ 15)
    (h : mask.extractLsb' start len = 0#len) :
    ((v &&& ~~~mask) ||| (t &&& mask)).extractLsb' start len = v.extractLsb' start len := by
  refine extract_eq_of_bits fun k lo hi => ?_
  have bit := congrArg (·.getLsbD (k - start)) h
  simp only [BitVec.getLsbD_extractLsb', BitVec.getLsbD_zero, Nat.add_sub_cancel' lo] at bit
  rw [getLsbD_masked_copy mask (by omega), if_neg (by simpa [show k - start < len by omega] using bit)]

/-- The coarse-X step counts modulo 32 (R98). -/
theorem incCoarseX_coarseX : coarseX (incCoarseX v) = coarseX v + 1#5 := by
  unfold incCoarseX
  split
  next wrap =>
    rw [wrap]
    refine BitVec.eq_of_getLsbD_eq fun k hk => ?_
    interval_cases k <;> simp [coarseX]
  next =>
    unfold coarseX
    apply BitVec.eq_of_toNat_eq
    simp only [BitVec.extractLsb'_toNat, BitVec.toNat_add, BitVec.toNat_ofNat, Nat.shiftRight_zero]
    omega

/-- The coarse-X step keeps the bits above coarse X, but for the flip of bit 10 at the wrap (R98). -/
theorem incCoarseX_high {k : Nat} (lo : 5 ≤ k) (hi : k < 15) :
    (incCoarseX v).getLsbD k = (v.getLsbD k ^^ decide (k = 10 ∧ coarseX v = 31#5)) := by
  unfold incCoarseX
  split
  next wrap => interval_cases k <;> simp [wrap]
  next noWrap =>
    have low : v.toNat % 32 ≠ 31 := fun e => noWrap (BitVec.eq_of_toNat_eq (by simpa [coarseX] using e))
    have above : (v + 1#15).toNat / 2 ^ 5 = v.toNat / 2 ^ 5 := by bv_omega
    obtain ⟨j, rfl⟩ := Nat.exists_eq_add_of_le lo
    simp only [noWrap, and_false, decide_false, Bool.xor_false, BitVec.getLsbD]
    rw [Nat.add_comm, ← Nat.testBit_div_two_pow, above, Nat.testBit_div_two_pow]

/-- Settles O51: the step is read off `incCoarseX_coarseX` and `incCoarseX_high`, and each copy field by field off its
mask. -/
theorem scrollStepsByFields : Obligations.ScrollStepsByFields := by
  intro v t
  refine ⟨⟨?_, ?_, ?_, ?_⟩,
    ⟨extract_masked_copy_of_ones (by decide) rfl, getLsbD_masked_copy 0x041F#15 (by decide),
      extract_masked_copy_of_zero (by decide) rfl, extract_masked_copy_of_zero (by decide) rfl⟩,
    ⟨extract_masked_copy_of_ones (by decide) rfl, extract_masked_copy_of_ones (by decide) rfl,
      extract_masked_copy_of_zero (by decide) rfl, getLsbD_masked_copy 0x7BE0#15 (by decide)⟩⟩
  · exact (congrArg BitVec.toNat incCoarseX_coarseX).trans (BitVec.toNat_add _ _)
  · rw [incCoarseX_high (by decide) (by decide)]
    simp [← BitVec.toNat_inj, coarseX]
  · refine extract_eq_of_bits fun k lo hi => ?_
    rw [incCoarseX_high lo (by omega), decide_eq_false (by omega), Bool.xor_false]
  · refine extract_eq_of_bits fun k lo hi => ?_
    rw [incCoarseX_high (by omega) (by omega), decide_eq_false (by omega), Bool.xor_false]

end Scroll

end Sys2Proof.Machine

/-! PROOF. The pixel of a visible dot, with its background and its sprites (R94, R109 to R114). -/

namespace Sys2Proof.Machine

section VisibleDot
variable {s : State} {bg : Pixel} {scan : Option (Fin 64 × Pixel)}

/-- `v` after the coarse-X step of column `x` (R94). -/
def coarseStepV (p : Ppu) (x : Nat) : BitVec 15 :=
  if p.showBackground = true ∧ tileColumn p x = 7 then incCoarseX p.v else p.v

theorem coarseStep_eq (p : Ppu) (x : Nat) : coarseStep p x = { p with v := coarseStepV p x } := by
  unfold coarseStep coarseStepV
  simp only [Bool.and_eq_true, decide_eq_true_eq]
  split <;> rfl

/-- The action of a visible dot (R94): its pixel, and the coarse-X step where it is due. -/
theorem renderAction_visible (lo : 1 ≤ s.ppu.dot.toNat) (hi : s.ppu.dot.toNat ≤ 256) {c : Color} {hit : Bool}
    (h : pixel s (s.ppu.dot.toNat - 1) s.ppu.scanline.toNat
      = .ok (putPixel s.ppu (s.ppu.dot.toNat - 1) s.ppu.scanline.toNat c hit)) :
    renderAction s = .ok { s.ppu with
      v := coarseStepV s.ppu (s.ppu.dot.toNat - 1)
      sprZeroHit := s.ppu.sprZeroHit || hit
      fb := fbWrite s.ppu.fb (s.ppu.dot.toNat - 1) s.ppu.scanline.toNat c } := by
  have visible : 1#9 ≤ s.ppu.dot ∧ s.ppu.dot ≤ 256#9 := by bv_omega
  rw [renderAction, if_pos visible, h]
  exact congrArg Except.ok (coarseStep_eq _ _)

theorem exec_cycle_visible (ha : s.Alive) (hp : s.ppu.phase = .render) (lo : 1 ≤ s.ppu.dot.toNat)
    (hi : s.ppu.dot.toNat ≤ 256) {c : Color} {hit : Bool}
    (h : pixel s (s.ppu.dot.toNat - 1) s.ppu.scanline.toNat
      = .ok (putPixel s.ppu (s.ppu.dot.toNat - 1) s.ppu.scanline.toNat c hit)) :
    exec .cycle s = .next { s with
      ppu := { s.ppu with
        dot := s.ppu.dot + 1#9
        v := coarseStepV s.ppu (s.ppu.dot.toNat - 1)
        sprZeroHit := s.ppu.sprZeroHit || hit
        fb := fbWrite s.ppu.fb (s.ppu.dot.toNat - 1) s.ppu.scanline.toNat c }
      result := .nothing } := by
  have inLine : s.ppu.dot ≠ 340#9 := fun e => by simp [e] at hi
  exact exec_cycle_of_dotStep ha (by simp [hp])
    (by simp [dotStep, hp, renderDot, renderAction_visible lo hi h, inLine, advance_withinLine])

/-- The hit is set where sprite 0 decides the column over an opaque background that is shown (R112). -/
theorem spriteHit_iff : spriteHit s.ppu bg scan = true
    ↔ bg.isOpaque = true ∧ s.ppu.showBackground = true ∧ ∃ px, scan = some (0, px) := by
  cases scan with
  | none => simp [spriteHit]
  | some decided =>
    obtain ⟨i, px⟩ := decided
    simp only [spriteHit, sprZeroHitBy, Fin.val_eq_zero_iff, Bool.and_eq_true, decide_eq_true_eq, Option.some.injEq,
      Prod.mk.injEq, exists_and_left, exists_eq', and_true]
    tauto

/-- A sprite pixel of a scan is opaque, so it wins where the background is not or where it is in front (R113). -/
theorem selectIndex_sprite {bg px : Pixel} (ho : px.isOpaque = true) (h : bg.isOpaque = false ∨ px.front = true) :
    selectIndex bg px = px.idx := by
  obtain h | h := h <;> simp [selectIndex, ho, h]

theorem sprites_some {x y : Nat} {i : Fin 64} {px : Pixel} (h : sprites s x y = .ok (some (i, px))) :
    px.isOpaque = true := by
  unfold sprites at h
  split at h
  · cases h
  · exact (scanSprites_some h).2

theorem colorOf_eq (par : Params) (entry : Byte) :
    colorOf par entry = par.colorTable.toList.getD (entry.toNat % 64) 0#32 := by
  have index : (entry.extractLsb' 0 6).toNat = entry.toNat % 64 := by simp [BitVec.extractLsb'_toNat]
  rw [← index, List.getD_eq_getElem _ _ (by simpa using (entry.extractLsb' 0 6).isLt)]
  rfl

/-- Settles O48: the action of a visible dot is its pixel and the coarse-X step; `pixel_eq` names the colour and the
hit. -/
theorem visibleDotDrawsOnePixel : Obligations.VisibleDotDrawsOnePixel := by
  intro s ha hs hp lo hi line x y
  obtain ⟨bg, hbg⟩ := background_fixed hs x
  obtain ⟨scan, hscan⟩ := sprites_fixed hs x y
  refine ⟨bg, scan, _, _, _, (selectIndex bg (spritePixel scan)).toNat, hbg, hscan,
    exec_cycle_visible ha hp lo hi (pixel_eq hbg hscan), fun due => if_pos due, fun idle => if_neg idle,
    by rw [Bool.or_eq_true, spriteHit_iff], fun i px e h => ?_, fun ho h => ?_, fun ho e => ?_, ?_,
    fun x' y' other => fbRead_fbWrite_other _ _ _ _ x' y' other⟩
  · subst e
    exact congrArg BitVec.toNat (selectIndex_sprite (sprites_some hscan) h)
  · obtain rfl | ⟨i, px, rfl, behind⟩ := h
    · simp [selectIndex, spritePixel, Pixel.clear, ho]
    · simp [selectIndex, spritePixel, behind, ho]
  · subst e
    simp [selectIndex, spritePixel, Pixel.clear, ho]
  · rw [fbRead_fbWrite_same _ _ _ _ (by omega), colorOf_eq, palIndex_toNat]

end VisibleDot

end Sys2Proof.Machine

/-! PROOF. The background pixel by the fields of `v` (R61, R63, R64, R110). -/

namespace Sys2Proof.Machine

section Addresses
variable (v : BitVec 15)

/-- The nametable address is `v[11:0]` in the nametables (R110). -/
theorem nametableAddr_append : nametableAddr v = 2#4 ++ v.extractLsb' 0 12 := by
  refine BitVec.eq_of_getLsbD_eq fun k hk => ?_
  interval_cases k <;> (simp only [nametableAddr, BitVec.getLsbD_append]; simp)

theorem nametableAddr_toNat : (nametableAddr v).toNat = 0x2000 + v.toNat % 0x1000 := by
  rw [nametableAddr_append, toNat_append_eq, BitVec.extractLsb'_toNat, Nat.shiftRight_zero]
  simp only [BitVec.toNat_ofNat]
  omega

/-- `attributeAddr` by fields (R110): the nametable bits, `0xF`, and the high three bits of each coarse
position. -/
theorem attributeAddr_append :
    attributeAddr v = 2#4 ++ (v.extractLsb' 10 2 ++ (0xF#4 ++ (v.extractLsb' 7 3 ++ v.extractLsb' 2 3))) := by
  refine BitVec.eq_of_getLsbD_eq fun k hk => ?_
  interval_cases k <;> (simp only [attributeAddr, BitVec.getLsbD_append]; simp)

theorem attributeAddr_toNat :
    (attributeAddr v).toNat
      = 0x23C0 + 0x400 * (v.toNat / 0x400 % 4) + 8 * (v.toNat / 0x20 % 32 / 4) + v.toNat % 32 / 4 := by
  rw [attributeAddr_append]
  simp only [toNat_append_eq, BitVec.extractLsb'_toNat, Nat.shiftRight_eq_div_pow, BitVec.toNat_ofNat]
  omega

/-- `attributeShift` by fields (R110): bit 1 of each coarse position. -/
theorem attributeShift_eq : attributeShift v = 4 * (v.toNat / 64 % 2) + 2 * (v.toNat / 2 % 2) := by
  have fields : ((v >>> 4) &&& 4#15) ||| (v &&& 2#15) = 0#12 ++ (v.extractLsb' 6 1 ++ (v.extractLsb' 1 1 ++ 0#1)) := by
    refine BitVec.eq_of_getLsbD_eq fun k hk => ?_
    interval_cases k <;> (simp only [BitVec.getLsbD_append]; simp)
  rw [attributeShift, fields]
  simp only [toNat_append_eq, BitVec.extractLsb'_toNat, Nat.shiftRight_eq_div_pow, BitVec.toNat_ofNat]
  omega

end Addresses

section Values

/-- The pattern value of two plane bytes at a bit (R63). -/
theorem patternBits_toNat (p1 p0 : Byte) (bit : Nat) :
    (patternBits p1 p0 bit).toNat = 2 * (p1.toNat / 2 ^ bit % 2) + p0.toNat / 2 ^ bit % 2 := by
  rw [patternBits, toNat_append_eq, BitVec.toNat_ofBool, BitVec.toNat_ofBool, bit_toNat, bit_toNat]
  omega

/-- The palette index by fields (R65). -/
theorem paletteIndex_toNat (s : BitVec 1) (pp cc : BitVec 2) :
    (paletteIndex s pp cc).toNat = 16 * s.toNat + 4 * pp.toNat + cc.toNat := by
  simp only [paletteIndex, toNat_append_eq]
  omega

theorem patternPixel_eq {s : State} {pa : Addr} {d0 d1 : Byte} (h0 : pbRead s pa = .ok d0)
    (h1 : pbRead s (pa + 8#16) = .ok d1) (bit : Nat) : patternPixel s pa bit = .ok (patternBits d1 d0 bit) := by
  simp [patternPixel, bind, Except.bind, h0, h1, pure, Except.pure]

end Values

section Background
variable {s : State} {x : Nat}

/-- A background that is hidden, or hidden at this column of the left edge (R110). -/
theorem background_hidden (h : s.ppu.showBackground = false ∨ (s.ppu.hideEdgeBackground = true ∧ x < 8)) :
    background s x = .ok Pixel.clear := by
  rw [background, if_pos (by simpa using h)]

/-- A shown background, on the bytes its fetches give (R110). -/
theorem background_shown (hb : s.ppu.showBackground = true) (he : s.ppu.hideEdgeBackground = false ∨ 8 ≤ x)
    {tile attr : Byte} {pattern : BitVec 2} (ht : pbRead s (nametableAddr s.ppu.v) = .ok tile)
    (hp : patternPixel s (patternAddr s.ppu.bgPage tile (fineY s.ppu.v).toNat) (7 - tileColumn s.ppu x) = .ok pattern)
    (hattr : pbRead s (attributeAddr s.ppu.v) = .ok attr) :
    background s x = .ok {
      idx := paletteIndex 0#1 ((attr >>> attributeShift s.ppu.v).extractLsb' 0 2) pattern
      isOpaque := decide (pattern ≠ 0#2)
      front := false } := by
  have shown : ¬(!s.ppu.showBackground || (s.ppu.hideEdgeBackground && decide (x < 8))) = true := by
    obtain he | he := he
    · simp [hb, he]
    · simp [hb, Nat.not_lt.mpr he]
  rw [background, if_neg shown]
  simp [bind, Except.bind, ht, hp, hattr, pure, Except.pure]

/-- Settles O53: the three addresses are given by fields, and in a fixed-mapping session each of their reads gives a
byte. -/
theorem backgroundPixelByFields : Obligations.BackgroundPixelByFields := by
  intro s x hs
  refine ⟨background_hidden, fun hb he => ?_⟩
  obtain ⟨tile, ht⟩ := pbRead_fixed hs (nametableAddr_lt s.ppu.v)
  obtain ⟨attr, hattr⟩ := pbRead_fixed hs (attributeAddr_lt s.ppu.v)
  have fine : (fineY s.ppu.v).toNat = s.ppu.v.toNat / 0x1000 := by
    have := s.ppu.v.isLt
    simp only [fineY, BitVec.extractLsb'_toNat, Nat.shiftRight_eq_div_pow]
    omega
  have row := patternAddr_toNat s.ppu.bgPage tile (fineY s.ppu.v).toNat (by have := (fineY s.ppu.v).isLt; omega)
  have inTables : (patternAddr s.ppu.bgPage tile (fineY s.ppu.v).toNat).toNat + 8 < 0x4000 := by
    have := s.ppu.bgPage.isLt
    have := tile.isLt
    have := (fineY s.ppu.v).isLt
    omega
  obtain ⟨p0, h0⟩ := pbRead_fixed hs (a := patternAddr s.ppu.bgPage tile (fineY s.ppu.v).toNat) (by bv_omega)
  obtain ⟨p1, h1⟩ := pbRead_fixed hs (a := patternAddr s.ppu.bgPage tile (fineY s.ppu.v).toNat + 8#16) (by bv_omega)
  refine ⟨_, _, _, tile, p0, p1, attr, _, nametableAddr_toNat _, ht, fine ▸ row, h0, h1, attributeAddr_toNat _, hattr,
    background_shown hb he ht (patternPixel_eq h0 h1 _) hattr, ?_, ?_⟩
  · rw [paletteIndex_toNat, patternBits_toNat, BitVec.extractLsb'_toNat, BitVec.toNat_ushiftRight, attributeShift_eq,
      Nat.shiftRight_zero, Nat.shiftRight_eq_div_pow, tileColumn]
    simp
  · rw [paletteIndex_toNat, decide_eq_true_iff, ne_eq, ← BitVec.toNat_inj]
    have := (patternBits p1 p0 (7 - tileColumn s.ppu x)).isLt
    simp only [BitVec.toNat_ofNat]
    omega

end Background

end Sys2Proof.Machine

/-! PROOF. The sprites of a line: the scan, the pattern of a sprite and the evaluation (R111, R114). -/

namespace Sys2Proof.Machine

section Scan
variable {s : State} {x y : Nat} {pat : Fin 64 → BitVec 2}

/-- Whether sprite `i`, with the pattern value `pat i` at column `x`, ends the scan (R111). -/
def endsScan (s : State) (x : Nat) (pat : Fin 64 → BitVec 2) (i : Fin 64) : Bool :=
  covers (spriteEntry s.ppu.oam i) x && (decide (s.par.spriteStop = .firstCovering) || decide (pat i ≠ 0#2))

/-- What the scan answers where sprite `i` ends it (R111). -/
def scanResult (s : State) (pat : Fin 64 → BitVec 2) (i : Fin 64) : Option (Fin 64 × Pixel) :=
  if pat i = 0#2 then none
  else some (i, {
    idx := paletteIndex 1#1 ((spriteEntry s.ppu.oam i).attr.extractLsb' 0 2) (pat i)
    isOpaque := true
    front := !(spriteEntry s.ppu.oam i).attr.getLsbD 5 })

/-- The scan is a search for the first sprite that ends it. -/
theorem scanSprites_eq (hp : ∀ i, spritePattern s (spriteEntry s.ppu.oam i) x y = .ok (pat i)) (l : List (Fin 64)) :
    scanSprites s x y l = .ok ((l.find? (endsScan s x pat)).bind (scanResult s pat)) := by
  induction l with
  | nil => rfl
  | cons i rest ih =>
    unfold scanSprites
    simp only [hp, ih, List.find?_cons]
    by_cases covered : covers (spriteEntry s.ppu.oam i) x = true
    · by_cases clear : pat i = 0#2
      · cases stop : s.par.spriteStop <;> simp [endsScan, scanResult, covered, clear, stop]
      · simp [endsScan, scanResult, covered, clear]
    · simp [endsScan, covered]

theorem spriteIndex_eq (attr : Byte) (value : BitVec 2) :
    paletteIndex 1#1 (attr.extractLsb' 0 2) value = BitVec.ofNat 5 (16 + 4 * (attr.toNat % 4) + value.toNat) := by
  apply BitVec.eq_of_toNat_eq
  have := value.isLt
  rw [paletteIndex_toNat, BitVec.extractLsb'_toNat, Nat.shiftRight_zero]
  simp only [BitVec.toNat_ofNat]
  omega

/-- Settles O54: a scan is a `find?` over the list (`scanSprites_eq`), on the pattern values that no sprite of a
fixed-mapping session fails to give. -/
theorem spriteScanTakesTheFirst : Obligations.SpriteScanTakesTheFirst := by
  intro s x y hs
  refine ⟨fun hidden => by rw [sprites, if_pos (by simpa using hidden)], fun shown edge => ?_⟩
  choose pat hpat using fun i => spritePattern_fixed hs (spriteEntry s.ppu.oam i) x y
  have visible : ¬(!s.ppu.showSprites || (s.ppu.hideEdgeSprites && decide (x < 8))) = true := by
    obtain edge | edge := edge
    · simp [shown, edge]
    · simp [shown, Nat.not_lt.mpr edge]
  have ends : endsScan s x pat = fun i =>
      let sx := (Memory.read s.ppu.oam (4 * i.val + 3)).toNat
      decide (sx ≤ x ∧ x < sx + 8) && (decide (s.par.spriteStop = .firstCovering) || decide (pat i ≠ 0#2)) := by
    funext i
    simp only [endsScan, covers, spriteEntry, Bool.decide_and]
    rfl
  refine ⟨pat, hpat, ?_⟩
  rw [sprites, if_neg visible, scanSprites_eq hpat, ← ends]
  cases s.ppu.lineSprites.find? (endsScan s x pat) with
  | none => rfl
  | some i =>
    simp only [Option.bind_some, scanResult, spriteIndex_eq]
    rfl

end Scan

section Pattern

/-- The remainder of R111 (D6) as a number: 256 is a multiple of both heights. -/
theorem spriteRow_eq (e : SpriteEntry) (long : Bool) (y : Nat) :
    spriteRow e (spriteHeight long) y = (y + 256 - (e.y.toNat + 1) % 256) % (if long then 16 else 8) := by
  have top : (e.y + 1#8).toNat = (e.y.toNat + 1) % 256 := BitVec.toNat_add _ _
  rw [spriteRow, top]
  cases long <;> simp only [spriteHeight, if_true, Bool.false_eq_true, if_false] <;> omega

/-- Settles O55: the row is `spriteRow_eq`'s, the addresses those of the two formats, and every fetch below `0x2000`
gives a byte. -/
theorem spritePatternAddresses : Obligations.SpritePatternAddresses := by
  intro p e y h unflipped row pa
  have hrow : flippedRow e (spriteHeight p.longSprites) (spriteRow e (spriteHeight p.longSprites) y) = row := by
    rw [flippedRow, spriteRow_eq]
    rfl
  have height : h = if p.longSprites then 16 else 8 := rfl
  have low : row < h := by
    have : unflipped < h := Nat.mod_lt _ (by rw [height]; split <;> decide)
    simp only [row]
    split <;> omega
  have addr : pa = spritePatternAddr p e row := by rw [← hrow]
  have short (hl : p.longSprites = false) : pa.toNat = 0x1000 * p.sprPage.toNat + 16 * e.tile.toNat + row := by
    rw [addr, spritePatternAddr, if_neg (by simp [hl]), patternAddr_toNat _ _ _ (by simp [height, hl] at low; omega)]
  have long (hl : p.longSprites = true) :
      pa.toNat = 0x1000 * (e.tile.toNat % 2) + 32 * (e.tile.toNat / 2) + row % 8 + (if row < 8 then 0 else 16) := by
    rw [addr, spritePatternAddr, if_pos hl, longPatternAddr_toNat]
    simp only [height, hl, if_true] at low
    split <;> omega
  have inTables : pa.toNat + 8 < 0x2000 := by
    have := e.tile.isLt
    have := p.sprPage.isLt
    cases hl : p.longSprites with
    | false =>
      simp only [height, hl, Bool.false_eq_true, if_false] at low
      have := short hl
      omega
    | true =>
      have := long hl
      split at this <;> omega
  refine ⟨low, short, long, inTables, fun s x hs hp lo hi => ?_⟩
  subst hp
  obtain ⟨p0, h0⟩ := pbRead_fixed hs (a := pa) (by bv_omega)
  obtain ⟨p1, h1⟩ := pbRead_fixed hs (a := pa + 8#16) (by bv_omega)
  exact ⟨p0, p1, _, h0, h1, patternPixel_eq h0 h1 (spriteBit e x), patternBits_toNat p1 p0 _⟩

end Pattern

section Evaluation

/-- In an increasing list, the first `n` are those with fewer than `n` elements before them. -/
theorem mem_take_iff_of_increasing {α : Type} [LinearOrder α] {l : List α} (h : l.Pairwise (· < ·)) (n : Nat) (a : α) :
    a ∈ l.take n ↔ a ∈ l ∧ (l.filter fun b => decide (b < a)).length < n := by
  induction l generalizing n with
  | nil => simp
  | cons b l ih =>
    obtain ⟨first, rest⟩ := List.pairwise_cons.mp h
    cases n with
    | zero => simp
    | succ n =>
      rw [List.take_succ_cons, List.mem_cons, List.mem_cons, ih rest]
      obtain rfl | hab := eq_or_ne a b
      · have none_before : l.filter (fun c => decide (c < a)) = [] :=
          List.filter_eq_nil_iff.mpr fun c hc => by simpa using (first c hc).le
        simp [none_before]
      · by_cases mem : a ∈ l
        · simp [mem, hab, first a mem]
        · simp [mem, hab]

/-- A sprite is in range of a line where the line is one of its rows (R114). -/
theorem inRange_iff (p : Ppu) (line : Nat) (i : Fin 64) : inRange p line i = true
    ↔ (Memory.read p.oam (4 * i.val)).toNat ≤ line
      ∧ line < (Memory.read p.oam (4 * i.val)).toNat + (if p.longSprites then 16 else 8) := by
  rw [inRange, Bool.and_eq_true, decide_eq_true_eq, decide_eq_true_eq]
  rfl

/-- Settles O56: the evaluated list is the first eight of an increasing list. -/
theorem evaluationSelectsTheFirstEight : Obligations.EvaluationSelectsTheFirstEight := by
  intro p line selects
  obtain ⟨short, increasing⟩ := evaluateSprites_ok p line
  have same : (fun i => decide (p.oamAddr.toNat / 4 ≤ i.val) && inRange p line i) = selects := by
    funext i
    rw [Bool.eq_iff_iff]
    rw [Bool.and_eq_true, inRange_iff]
    simp only [selects, decide_eq_true_eq]
    split <;> omega
  refine ⟨short, increasing, fun i => ?_⟩
  rw [evaluateSprites, same, mem_take_iff_of_increasing ((List.pairwise_lt_finRange 64).filter _), List.filter_filter,
    List.mem_filter]
  simp [Bool.and_comm]

end Evaluation

end Sys2Proof.Machine

/-! PROOF. The frame: each dot moves the position on by one (R106, R108), so a frame of dots comes back to its start
(R105). -/

namespace Sys2Proof.Machine

section Ordinals
variable {par : Params} {p q : Ppu} {s : State}

/-- The two readings of decision D3: lines of the dots 0 to 340, or of the dots 1 to 340. -/
theorem lineCalls_cases (par : Params) :
    (lineCalls par = 341 ∧ (lineStart par).toNat = 0) ∨ (lineCalls par = 340 ∧ (lineStart par).toNat = 1) := by
  unfold lineCalls lineStart
  cases par.lineWrap <;> simp

/-- A line has as many calls as dots from its first to 340 (R105, R108). -/
theorem lineCalls_add_lineStart (par : Params) : lineCalls par + (lineStart par).toNat = 341 := by
  unfold lineCalls lineStart
  cases par.lineWrap <;> rfl

theorem lineStart_le_one (par : Params) : (lineStart par).toNat ≤ 1 := by
  obtain h | h := lineStart_cases par <;> simp [h]

theorem lineOrdinal_le (h : p.PositionOk) : lineOrdinal p ≤ 261 := by
  obtain ⟨-, line⟩ := h
  unfold lineOrdinal
  cases hp : p.phase <;> simp only [hp] at line ⊢ <;> bv_omega

/-- The pre-render line is the first of the frame. -/
theorem lineOrdinal_eq_zero_iff : lineOrdinal p = 0 ↔ p.phase = .preRender := by
  cases hp : p.phase <;> simp [lineOrdinal, hp]

/-- Scanline 241 is line 242 of the frame. -/
theorem lineOrdinal_eq_vblank_iff (h : p.PositionOk) :
    lineOrdinal p = 242 ↔ p.phase = .verticalBlank ∧ p.scanline = 241#9 := by
  obtain ⟨-, line⟩ := h
  cases hp : p.phase <;> simp only [hp] at line <;> simp only [lineOrdinal, hp] <;> simp <;> bv_omega

/-- The number of a dot gives back its line and its dot. -/
theorem dotOrdinal_eq_iff (h : p.PositionOk) (start : (lineStart par).toNat ≤ p.dot.toNat) {line d : Nat}
    (lo : (lineStart par).toNat ≤ d) (hi : d ≤ 340) :
    dotOrdinal par p = lineCalls par * line + d - (lineStart par).toNat ↔ lineOrdinal p = line ∧ p.dot.toNat = d := by
  have last : p.dot.toNat ≤ 340 := by have := h.1; bv_omega
  unfold dotOrdinal
  obtain ⟨calls, first⟩ | ⟨calls, first⟩ := lineCalls_cases par <;> (rw [calls]; omega)

theorem dotOrdinal_lt (h : p.PositionOk) (start : (lineStart par).toNat ≤ p.dot.toNat) :
    dotOrdinal par p < lineCalls par * 262 := by
  have last : p.dot.toNat ≤ 340 := by have := h.1; bv_omega
  have line := lineOrdinal_le h
  unfold dotOrdinal
  obtain ⟨calls, first⟩ | ⟨calls, first⟩ := lineCalls_cases par <;> (rw [calls]; omega)

theorem Ppu.position_congr (e : q.position = p.position) :
    lineOrdinal q = lineOrdinal p ∧ dotOrdinal par q = dotOrdinal par p ∧ q.dot = p.dot
      ∧ q.evenFrame = p.evenFrame := by
  obtain ⟨phase, scanline, dot, even⟩ := Ppu.position_eq_iff.mp e
  have line : lineOrdinal q = lineOrdinal p := by unfold lineOrdinal; rw [phase, scanline]
  exact ⟨line, by rw [dotOrdinal, dotOrdinal, line, dot], dot, even⟩

/-- A dot's action does not change whether its line ends there. -/
theorem ActionFrame.lineEndsAt_eq (f : ActionFrame p q) (par : Params) : lineEndsAt par q = lineEndsAt par p := by
  obtain ⟨phase, -, dot, even⟩ := Ppu.position_eq_iff.mp f.position
  unfold lineEndsAt preRenderEnds renderingEnabled
  rw [phase, dot, even, f.showBackground, f.showSprites]

/-- Whether the dot is the one that R93 skips from: dot 339 of the pre-render line of an odd frame that is rendered. -/
def State.Skips (s : State) : Prop :=
  s.ppu.phase = .preRender ∧ s.ppu.dot = 339#9 ∧ s.ppu.evenFrame = false ∧ s.RenderingOn

theorem lineEndsAt_iff (s : State) : lineEndsAt s.par s.ppu = true ↔ s.ppu.dot = 340#9 ∨ s.Skips := by
  unfold lineEndsAt State.Skips
  split
  next hp => simp only [preRenderEnds_iff, hp, true_and]
  next hp => simp [show s.ppu.phase ≠ .preRender from hp]

/-- Within a line the next dot has the next number. -/
theorem dotOrdinal_within (h : p.PositionOk) (start : (lineStart par).toNat ≤ p.dot.toNat) (inLine : p.dot ≠ 340#9) :
    (lineStart par).toNat ≤ (advance par false p).dot.toNat
      ∧ dotOrdinal par (advance par false p) = dotOrdinal par p + 1
      ∧ dotOrdinal par p + 1 < lineCalls par * 262 := by
  have dot : (p.dot + 1#9).toNat = p.dot.toNat + 1 := by have := h.1; bv_omega
  have number : dotOrdinal par (advance par false p) = dotOrdinal par p + 1 := by
    have line : lineOrdinal (advance par false p) = lineOrdinal p := rfl
    rw [dotOrdinal, dotOrdinal, line, advance_withinLine, dot]
    omega
  have first : (lineStart par).toNat ≤ (advance par false p).dot.toNat := by rw [advance_withinLine, dot]; omega
  have legal : (advance par false p).PositionOk := by
    obtain ⟨last, line⟩ := h
    exact ⟨by rw [advance_withinLine]; bv_omega, line⟩
  exact ⟨first, number, number ▸ dotOrdinal_lt legal first⟩

/-- The first dot of the line after this one. -/
theorem dotOrdinal_nextLine (h : p.PositionOk) :
    dotOrdinal par (advance par true (nextLine p)) = lineCalls par * ((lineOrdinal p + 1) % 262) := by
  obtain ⟨-, line, -⟩ := nextLine_line h par
  have same : lineOrdinal (advance par true (nextLine p)) = lineOrdinal (nextLine p) := rfl
  rw [dotOrdinal, same, line, advance_lineEnd, Nat.add_sub_cancel]

/-- One dot on: the number after the dot, whether the line ends there or not, and the flip of `evenFrame` after the
last. -/
theorem dotStep_ordinal (hp : s.ppu.PositionOk) (start : (lineStart s.par).toNat ≤ s.ppu.dot.toNat)
    (h : dotStep s = .ok q) :
    (s.Skips → dotOrdinal s.par q = lineCalls s.par)
      ∧ (¬s.Skips → dotOrdinal s.par q = (dotOrdinal s.par s.ppu + 1) % (lineCalls s.par * 262))
      ∧ (lineStart s.par).toNat ≤ q.dot.toNat
      ∧ q.evenFrame
        = if dotOrdinal s.par s.ppu + 1 = lineCalls s.par * 262 then !s.ppu.evenFrame else s.ppu.evenFrame := by
  obtain ⟨p, ha, rfl⟩ := dotStep_ok h
  have f := dotAction_frame ha
  obtain ⟨line, ordinal, dot, even⟩ := Ppu.position_congr (par := s.par) f.position
  have legal := hp.congr f.position
  have one := lineStart_le_one s.par
  have calls := lineCalls_add_lineStart s.par
  unfold moveOn
  rw [f.lineEndsAt_eq, ← even, ← ordinal]
  rw [← dot] at start
  by_cases skips : s.Skips
  · obtain ⟨phase, at339, -⟩ := id skips
    have first := lineOrdinal_eq_zero_iff.mpr phase
    have small : dotOrdinal s.par p + 1 ≠ lineCalls s.par * 262 := by
      rw [dotOrdinal, line, first, dot, at339]
      simp only [BitVec.toNat_ofNat]
      omega
    obtain ⟨-, -, kept⟩ := nextLine_line legal s.par
    rw [if_pos ((lineEndsAt_iff s).mpr (.inr skips)), dotOrdinal_nextLine legal, if_neg small, line, first]
    rw [line, first] at kept
    exact ⟨fun _ => Nat.mul_one _, fun no => absurd skips no, le_rfl, kept⟩
  · by_cases at340 : s.ppu.dot = 340#9
    · have whole : dotOrdinal s.par p + 1 = lineCalls s.par * (lineOrdinal p + 1) := by
        rw [dotOrdinal, dot, at340, Nat.mul_add]
        simp only [BitVec.toNat_ofNat]
        omega
      have last : lineCalls s.par * (lineOrdinal p + 1) = lineCalls s.par * 262 ↔ lineOrdinal p = 261 := by
        rw [Nat.mul_right_inj (by omega)]
        omega
      obtain ⟨-, -, flip⟩ := nextLine_line legal s.par
      rw [if_pos ((lineEndsAt_iff s).mpr (.inl at340)), dotOrdinal_nextLine legal, whole, Nat.mul_mod_mul_left]
      simp only [last]
      exact ⟨fun yes => absurd yes skips, fun _ => trivial, le_rfl, flip⟩
    · obtain ⟨first, next, within⟩ := dotOrdinal_within legal start (dot ▸ at340)
      rw [if_neg (by simp [lineEndsAt_iff, at340, skips]), next, Nat.mod_eq_of_lt within, if_neg within.ne]
      exact ⟨fun yes => absurd yes skips, fun _ => rfl, first, rfl⟩

/-- Settles O57: `dotStep_ordinal`, with or without the interrupt signal. -/
theorem eachCycleIsOneDot : Obligations.EachCycleIsOneDot := by
  intro s t hp start h
  obtain ⟨-, p, hd, ⟨-, rfl⟩ | ⟨-, rfl⟩⟩ := execCycle_next h
  · obtain ⟨skip, next, first, -⟩ := dotStep_ordinal hp start hd
    exact ⟨skip, next, first⟩
  · obtain ⟨skip, next, first, -⟩ := dotStep_ordinal hp start hd
    exact ⟨skip, next, first⟩

end Ordinals

section Frame
variable {s u t : State} {m : Nat}

/-- Whether the frame from `s` is one call short (R93, R105). -/
def shortFrame (s : State) : Bool := !s.ppu.evenFrame && renderingEnabled s.par s.ppu

theorem shortFrame_iff (s : State) : shortFrame s = true ↔ s.ppu.evenFrame = false ∧ s.RenderingOn := by
  simp [shortFrame, renderingEnabled_iff]

/-- The number of dot 1 of scanline 241, where vertical blank starts (R103). -/
def vblankOrdinal (par : Params) : Nat := lineCalls par * 242 + 1 - (lineStart par).toNat

/-- Where a run of `cycle()` from `s`, the first dot of a frame, stands once it has come to the dot of number `m`. -/
structure InFrame (s u : State) (m : Nat) : Prop where
  alive : u.Alive
  session : u.FixedSession
  par : u.par = s.par
  frame : CycleFrame s.ppu u.ppu
  position : u.ppu.PositionOk
  start : (lineStart s.par).toNat ≤ u.ppu.dot.toNat
  ordinal : dotOrdinal s.par u.ppu = m
  evenFrame : u.ppu.evenFrame = s.ppu.evenFrame
  nmi : u.out.nmiCount
    = s.out.nmiCount + if s.ppu.generateInterrupt = true ∧ vblankOrdinal s.par < m then 1 else 0

/-- The number of the dot after that of number `m` within the frame: a short frame leaves out the last dot of its
first line. -/
def nextOrdinal (s : State) (m : Nat) : Nat :=
  if shortFrame s = true ∧ m + 2 = lineCalls s.par then m + 2 else m + 1

theorem InFrame.skips_iff (f : InFrame s u m) : u.Skips ↔ shortFrame s = true ∧ m + 2 = lineCalls s.par := by
  have rendering : u.RenderingOn ↔ s.RenderingOn := by
    unfold State.RenderingOn
    rw [f.par, f.frame.showBackground, f.frame.showSprites]
  have calls := lineCalls_add_lineStart s.par
  have one := lineStart_le_one s.par
  have at339 := dotOrdinal_eq_iff f.position f.start (line := 0) (d := 339) (by omega) (by decide)
  rw [lineOrdinal_eq_zero_iff, f.ordinal] at at339
  have dot : u.ppu.dot = 339#9 ↔ u.ppu.dot.toNat = 339 := by rw [← BitVec.toNat_inj]; rfl
  have number : m + 2 = lineCalls s.par ↔ m = lineCalls s.par * 0 + 339 - (lineStart s.par).toNat := by omega
  rw [State.Skips, shortFrame_iff, f.evenFrame, rendering, dot, number, at339]
  tauto

theorem InFrame.emits_iff (f : InFrame s u m) :
    emitsInterrupt u.ppu = true ↔ s.ppu.generateInterrupt = true ∧ m = vblankOrdinal s.par := by
  have one := lineStart_le_one s.par
  have at1 := dotOrdinal_eq_iff f.position f.start (line := 242) (d := 1) (by omega) (by decide)
  rw [lineOrdinal_eq_vblank_iff f.position, f.ordinal] at at1
  have dot : u.ppu.dot = 1#9 ↔ u.ppu.dot.toNat = 1 := by rw [← BitVec.toNat_inj]; rfl
  rw [emitsInterrupt_iff, f.frame.generateInterrupt, dot, vblankOrdinal, at1]
  tauto

/-- What one more `cycle()` does to a run within its frame, but for where it comes to. -/
theorem InFrame.cycle (f : InFrame s u m) :
    ∃ t, exec .cycle u = .next t ∧ dotStep u = .ok t.ppu ∧ t.Alive ∧ t.par = s.par ∧ t.FixedSession
      ∧ t.out.nmiCount
        = s.out.nmiCount + if s.ppu.generateInterrupt = true ∧ vblankOrdinal s.par < m + 1 then 1 else 0 := by
  obtain ⟨p, hp⟩ := dotStep_fixed f.session
  cases emits : emitsInterrupt u.ppu with
  | true =>
    obtain ⟨enabled, here⟩ := f.emits_iff.mp emits
    refine ⟨_, exec_cycle_interrupt f.alive emits hp, hp, f.alive, f.par, f.session, ?_⟩
    simp [f.nmi, enabled, here]
  | false =>
    refine ⟨_, exec_cycle_silent f.alive emits hp, hp, f.alive, f.par, f.session, ?_⟩
    have away : ¬(s.ppu.generateInterrupt = true ∧ m = vblankOrdinal s.par) := fun h => by
      simp [f.emits_iff.mpr h] at emits
    have same : (s.ppu.generateInterrupt = true ∧ vblankOrdinal s.par < m + 1)
        ↔ (s.ppu.generateInterrupt = true ∧ vblankOrdinal s.par < m) := by
      refine and_congr_right fun enabled => ?_
      have : m ≠ vblankOrdinal s.par := fun here => away ⟨enabled, here⟩
      omega
    simp only [f.nmi, same]

/-- Short of the last dot, a run stays within its frame. -/
theorem InFrame.next (f : InFrame s u m) (hm : m + 1 < lineCalls s.par * 262) :
    ∃ t, exec .cycle u = .next t ∧ InFrame s t (nextOrdinal s m) := by
  obtain ⟨t, ht, hd, alive, par, session, nmi⟩ := f.cycle
  obtain ⟨skip, within, start, even⟩ := dotStep_ordinal f.position (f.par ▸ f.start) hd
  rw [f.par] at skip within start even
  rw [f.ordinal, if_neg hm.ne, f.evenFrame] at even
  rw [f.ordinal, Nat.mod_eq_of_lt hm] at within
  have calls := lineCalls_add_lineStart s.par
  have one := lineStart_le_one s.par
  refine ⟨t, ht, alive, session, par, f.frame.trans (dotStep_frame hd), dotStep_positionOk hd f.position,
    start, ?_, even, ?_⟩
  · rw [nextOrdinal]
    by_cases skips : u.Skips
    · obtain ⟨-, short⟩ := f.skips_iff.mp skips
      rw [if_pos (f.skips_iff.mp skips), skip skips, short]
    · rw [if_neg (f.skips_iff.not.mp skips), within skips]
  · have same : vblankOrdinal s.par < nextOrdinal s m ↔ vblankOrdinal s.par < m + 1 := by
      unfold nextOrdinal vblankOrdinal
      split <;> omega
    simp only [nmi, same]

/-- The last dot of a frame leads to the first dot of the next one. -/
theorem InFrame.last (f : InFrame s u m) (hm : m + 1 = lineCalls s.par * 262) :
    ∃ t, exec .cycle u = .next t ∧ t.ppu.phase = .preRender ∧ t.ppu.scanline = 0#9 ∧ t.ppu.dot = lineStart s.par
      ∧ t.ppu.evenFrame = !s.ppu.evenFrame
      ∧ t.out.nmiCount = s.out.nmiCount + if s.ppu.generateInterrupt then 1 else 0 := by
  obtain ⟨t, ht, hd, alive, par, session, nmi⟩ := f.cycle
  obtain ⟨-, wraps, start, even⟩ := dotStep_ordinal f.position (f.par ▸ f.start) hd
  have calls := lineCalls_add_lineStart s.par
  have one := lineStart_le_one s.par
  have goes : ¬u.Skips := fun skips => by
    have := (f.skips_iff.mp skips).2
    omega
  have legal := dotStep_positionOk hd f.position
  rw [f.par] at wraps start even
  rw [f.ordinal, hm, Nat.mod_self] at wraps
  rw [f.ordinal, if_pos hm, f.evenFrame] at even
  have first := (dotOrdinal_eq_iff legal start (line := 0) le_rfl (by omega)).mp (by rw [wraps goes]; omega)
  have phase := lineOrdinal_eq_zero_iff.mp first.1
  have line : t.ppu.scanline = 0#9 := by
    have := legal.2
    rwa [phase] at this
  refine ⟨t, ht, phase, line, BitVec.eq_of_toNat_eq first.2, even, ?_⟩
  have done : vblankOrdinal s.par < m + 1 := by
    unfold vblankOrdinal
    omega
  simpa only [done, and_true] using nmi

/-- The number of the dot after `k` calls from the first dot of a frame. -/
def ordinalAfter (s : State) (k : Nat) : Nat :=
  if shortFrame s = true ∧ lineCalls s.par ≤ k + 1 then k + 1 else k

theorem nextOrdinal_ordinalAfter (s : State) (k : Nat) : nextOrdinal s (ordinalAfter s k) = ordinalAfter s (k + 1) := by
  unfold nextOrdinal ordinalAfter
  cases shortFrame s
  · simp
  · simp only [true_and]
    split <;> split <;> split <;> omega

theorem inFrame_first (ha : s.Alive) (hs : s.FixedSession) (phase : s.ppu.phase = .preRender)
    (line : s.ppu.scanline = 0#9) (dot : s.ppu.dot = lineStart s.par) : InFrame s s 0 := by
  have one := lineStart_le_one s.par
  have legal : s.ppu.PositionOk := by
    refine ⟨by rw [dot]; bv_omega, ?_⟩
    rw [phase]
    exact line
  have start : (lineStart s.par).toNat ≤ s.ppu.dot.toNat := by rw [dot]
  have first := (dotOrdinal_eq_iff legal start (line := 0) le_rfl (by omega)).mpr
    ⟨lineOrdinal_eq_zero_iff.mpr phase, congrArg BitVec.toNat dot⟩
  refine ⟨ha, hs, rfl, .refl _, legal, start, by rw [first]; omega, rfl, by simp⟩

/-- A run stays within its frame up to the last dot. -/
theorem inFrame_after (h : InFrame s s 0) (k : Nat) (hk : ordinalAfter s k < lineCalls s.par * 262) :
    ∃ u, repeated .cycle k s = .next u ∧ InFrame s u (ordinalAfter s k) := by
  induction k with
  | zero =>
    have calls := lineCalls_add_lineStart s.par
    have one := lineStart_le_one s.par
    have zero : ordinalAfter s 0 = 0 := if_neg (by omega)
    exact ⟨s, rfl, zero.symm ▸ h⟩
  | succ k ih =>
    rw [← nextOrdinal_ordinalAfter] at hk ⊢
    have later : ordinalAfter s k + 1 ≤ nextOrdinal s (ordinalAfter s k) := by unfold nextOrdinal; split <;> omega
    obtain ⟨u, hu, inside⟩ := ih (by omega)
    obtain ⟨t, ht, next⟩ := inside.next (by omega)
    exact ⟨t, (repeated_succ hu).trans ht, next⟩

/-- The calls of the frame from `s` (R105). -/
def frameCalls (s : State) : Nat := lineCalls s.par * 262 - (shortFrame s).toNat

theorem ordinalAfter_lt {k : Nat} (hk : k < frameCalls s) : ordinalAfter s k < lineCalls s.par * 262 := by
  unfold frameCalls at hk
  unfold ordinalAfter
  cases hs : shortFrame s <;> rw [hs] at hk <;> simp at hk ⊢
  · exact hk
  · split <;> omega

theorem ordinalAfter_last : ordinalAfter s (frameCalls s - 1) + 1 = lineCalls s.par * 262 := by
  have calls := lineCalls_add_lineStart s.par
  have one := lineStart_le_one s.par
  unfold frameCalls ordinalAfter
  cases shortFrame s <;> simp
  · omega
  · rw [if_pos (by omega)]
    omega

theorem frameCalls_pos (s : State) : 0 < frameCalls s := by
  have calls := lineCalls_add_lineStart s.par
  have one := lineStart_le_one s.par
  have := (shortFrame s).toNat_le
  unfold frameCalls
  omega

/-- A frame has come back to its first dot only when its number is 0 again. -/
theorem InFrame.not_first (f : InFrame s u m) (hm : 0 < m) :
    ¬(u.ppu.phase = .preRender ∧ u.ppu.dot = lineStart s.par) := by
  rintro ⟨phase, dot⟩
  have first := (dotOrdinal_eq_iff f.position f.start (line := 0) le_rfl (by have := lineStart_le_one s.par; omega)).mpr
    ⟨lineOrdinal_eq_zero_iff.mpr phase, congrArg BitVec.toNat dot⟩
  rw [f.ordinal] at first
  omega

/-- Settles O58: numbering the dots of the frame, the run is at dot `ordinalAfter s k` after `k` calls; that is not
the first dot before the frame is whole, and the call from the last dot leads back to it. -/
theorem frameLength : Obligations.FrameLength := by
  intro s n ha hs phase line dot short whole
  have run {k : Nat} (hk : k < frameCalls s) :=
    inFrame_after (inFrame_first ha hs phase line dot) k (ordinalAfter_lt hk)
  have positive := frameCalls_pos s
  obtain rfl : n = frameCalls s := by
    rw [← shortFrame_iff] at short whole
    unfold frameCalls
    cases hf : shortFrame s with
    | true => exact short hf
    | false => exact whole (by simp [hf])
  refine ⟨?_, fun k u begun within hu => ?_⟩
  · obtain ⟨u, hu, inside⟩ := run (k := frameCalls s - 1) (by omega)
    obtain ⟨t, ht, back⟩ := inside.last ordinalAfter_last
    have call := repeated_succ hu
    rw [Nat.sub_add_cancel positive] at call
    exact ⟨t, call.trans ht, back⟩
  · obtain ⟨u', hu', inside⟩ := run within
    obtain rfl : u' = u := by simpa [hu'] using hu
    refine inside.not_first ?_
    unfold ordinalAfter
    split <;> omega

end Frame

end Sys2Proof.Machine
